-- ==== Sys2Proof/Word.lean ====
section
/-! DEFINITION. The widths of the bus engine's values (spec/00_scope.md R10: every value is unsigned, bit 0 is the least significant bit). -/

namespace Sys2Proof

/-- A fault code, `FCODE` (10_state.md R42). -/
abbrev Word4 := BitVec 4

/-- The co-processor's micro-step register `CP_STATE` (10_state.md R31). -/
abbrev Word3 := BitVec 3

/-- A byte of a serialized word (20_memory.md R74), and the opcode field of a command (30_encoding.md R100). -/
abbrev Word8 := BitVec 8

/-- A data word, `WORD_W = BUS_W = 16` (00_scope.md R8). -/
abbrev Word16 := BitVec 16

/-- One bit per line of the Bus Pin Set, `N_LINES = 21` (00_scope.md R8, 10_state.md R33). -/
abbrev Word21 := BitVec 21

/-- A cartridge address, `ADDR_W = 32` (00_scope.md R8), and a command's operand field (30_encoding.md R100). -/
abbrev Word32 := BitVec 32

/-- A command word (30_encoding.md R100). -/
abbrev Word40 := BitVec 40

end Sys2Proof
end

