-- ==== Sys2Proof/Syntax.lean ====
section
/-! DEFINITION. The instructions: one constructor per row of spec/opcode_table.json, the Host's four commands (30_encoding.md R102) and the co-processor's six micro-steps (R107). -/

namespace Sys2Proof

/-- The rows of the opcode table, with their operands. Every operand value of every type below is legal (R101). -/
inductive Instr where
  /-- INIT_PINS, format N (40_bus_pin_set.md R134). -/
  | initPins
  /-- INIT_ENGINE, format V: `v = 0` Polled, `v = 1` Timed (42_word_read_engine.md R160). -/
  | initEngine (v : BitVec 1)
  /-- SET_ADDRESS, format A (41_address_controller.md R140). -/
  | setAddress (a : Word32)
  /-- READ_WORD, format N (42_word_read_engine.md R161). -/
  | readWord
  /-- U0 uWAIT_TRIG (43_timed_coprocessor.md R183). -/
  | uWaitTrig
  /-- U1 uRE_ASSERT (R184). -/
  | uReAssert
  /-- U2 uHOLD (R185). -/
  | uHold
  /-- U3 uSAMPLE (R186). -/
  | uSample
  /-- U4 uRE_DEASSERT (R187). -/
  | uReDeassert
  /-- U5 uPUSH (R188). -/
  | uPush
deriving DecidableEq, Repr

end Sys2Proof
end

