-- ==== Sys2Proof/WellFormed.lean ====
section
/-! DEFINITION. Which instructions an agent may perform (the opcode table's "agent" column), and which lines of the spec's assembly language are well formed (30_encoding.md R108, R109). -/

namespace Sys2Proof

/-- The two agents that take steps (00_scope.md R15). -/
inductive Agent where
  /-- The firmware thread that issues commands. -/
  | host
  /-- The timing co-processor. -/
  | cp
deriving DecidableEq, Repr

/-- The agent that performs an instruction: the "agent" of its row of spec/opcode_table.json. -/
def Instr.agent : Instr → Agent
  | .initPins => .host
  | .initEngine _ => .host
  | .setAddress _ => .host
  | .readWord => .host
  | .uWaitTrig => .cp
  | .uReAssert => .cp
  | .uHold => .cp
  | .uSample => .cp
  | .uReDeassert => .cp
  | .uPush => .cp

/-- An instruction is well formed for the agent whose row it is: a command is never a micro-step (R107: "The
co-processor does not decode words"), a micro-step never a command. -/
def WellFormed (ag : Agent) (i : Instr) : Bool := i.agent == ag

/-- A line of the spec's assembly language (R108) with its literal not yet checked, and the pseudo-instruction of R109. -/
inductive AsmLine where
  /-- `INIT_PINS` -/
  | initPins
  /-- `INIT_ENGINE POLLED` (`false`) or `INIT_ENGINE TIMED` (`true`) -/
  | initEngine (timed : Bool)
  /-- `SET_ADDRESS <imm32>` -/
  | setAddress (imm : Nat)
  /-- `READ_WORD` -/
  | readWord
  /-- `READ_AT <imm32>, <n>` -/
  | readAt (imm n : Nat)
deriving DecidableEq, Repr

/-- The checks of R108 (the literal lies in `0 .. 2^32-1`) and R109 (`n >= 1`). -/
def AsmLine.wellFormed : AsmLine → Bool
  | .initPins => true
  | .initEngine _ => true
  | .setAddress imm => decide (imm < 2 ^ 32)
  | .readWord => true
  | .readAt imm n => decide (imm < 2 ^ 32) && decide (1 ≤ n)

end Sys2Proof
end

