-- ==== Sys2Proof/Decode.lean ====
section
/-! DEFINITION. The decoder of 30_encoding.md R104 and R107, total on every word and rejecting by name; after it the encoder (R100 to R102) and the assembler (R108, R109). -/

namespace Sys2Proof

/-- Why a word is no instruction. -/
inductive DecodeError where
  /-- A command word whose opcode is `0x00` or `0x05` to `0xFF` (R105). -/
  | reservedOpcode
  /-- A command word with a nonzero reserved operand bit (R105). -/
  | reservedOperand
  /-- `CP_STATE = 110`, reserved (R107). -/
  | reservedMicroStep
  /-- `CP_STATE = 111`, the co-processor is not running (R107, R189). -/
  | coprocessorOff
deriving DecidableEq, Repr

/-- `OPC = C[39:32]` (R100). -/
def opcodeField (c : Word40) : Word8 := c.extractLsb' 32 8

/-- `OPND = C[31:0]` (R100). -/
def operandField (c : Word40) : Word32 := c.extractLsb' 0 32

/-- The decoder of a command word, R104. -/
def decodeCommand (c : Word40) : Except DecodeError Instr :=
  if opcodeField c = 0x01#8 then
    if operandField c = 0#32 then .ok .initPins else .error .reservedOperand
  else if opcodeField c = 0x02#8 then
    if (operandField c).extractLsb' 1 31 = 0#31 then .ok (.initEngine ((operandField c).extractLsb' 0 1))
    else .error .reservedOperand
  else if opcodeField c = 0x03#8 then .ok (.setAddress (operandField c))
  else if opcodeField c = 0x04#8 then
    if operandField c = 0#32 then .ok .readWord else .error .reservedOperand
  else .error .reservedOpcode

/-- The micro-step that `CP_STATE` selects, R107. -/
def decodeMicro (u : Word3) : Except DecodeError Instr :=
  if u = 0b000#3 then .ok .uWaitTrig
  else if u = 0b001#3 then .ok .uReAssert
  else if u = 0b010#3 then .ok .uHold
  else if u = 0b011#3 then .ok .uSample
  else if u = 0b100#3 then .ok .uReDeassert
  else if u = 0b101#3 then .ok .uPush
  else if u = 0b110#3 then .error .reservedMicroStep
  else .error .coprocessorOff

/-- The two kinds of code word of the opcode table: a 40-bit command word the Host issues, a 3-bit micro-step index
`CP_STATE` holds. -/
inductive CodeWord where
  /-- A command word (R100). -/
  | command (c : Word40)
  /-- A micro-step index (R107). -/
  | micro (u : Word3)
deriving DecidableEq, Repr

/-- The decoder on every code word. -/
def decode : CodeWord → Except DecodeError Instr
  | .command c => decodeCommand c
  | .micro u => decodeMicro u

/-- The command word with opcode field `opc` and operand field `opnd` (R100). -/
def mkCommand (opc : Word8) (opnd : Word32) : Word40 := opc ++ opnd

/-- `INIT_PINS` (R102, format N). -/
def initPinsWord : Word40 := mkCommand 0x01#8 0#32

/-- `INIT_ENGINE` (R102, format V): `OPND[31:1] = 0`, `OPND[0] = v`. -/
def initEngineWord (v : BitVec 1) : Word40 := mkCommand 0x02#8 (0#31 ++ v)

/-- `SET_ADDRESS` (R102, format A): `OPND = a`. -/
def setAddressWord (a : Word32) : Word40 := mkCommand 0x03#8 a

/-- `READ_WORD` (R102, format N). -/
def readWordWord : Word40 := mkCommand 0x04#8 0#32

/-- The encoder: R102 for the commands, R107 for the micro-steps. -/
def encode : Instr → CodeWord
  | .initPins => .command initPinsWord
  | .initEngine v => .command (initEngineWord v)
  | .setAddress a => .command (setAddressWord a)
  | .readWord => .command readWordWord
  | .uWaitTrig => .micro 0b000#3
  | .uReAssert => .micro 0b001#3
  | .uHold => .micro 0b010#3
  | .uSample => .micro 0b011#3
  | .uReDeassert => .micro 0b100#3
  | .uPush => .micro 0b101#3

/-- What an assembly line stands for (R108), `READ_AT` expanded as R109 says; nothing for an ill-formed line. -/
def assemble (l : AsmLine) : Option (List Instr) :=
  if l.wellFormed then
    match l with
    | .initPins => some [.initPins]
    | .initEngine timed => some [.initEngine (BitVec.ofBool timed)]
    | .setAddress imm => some [.setAddress (BitVec.ofNat 32 imm)]
    | .readWord => some [.readWord]
    | .readAt imm n => some (.setAddress (BitVec.ofNat 32 imm) :: List.replicate n .readWord)
  else none

/-- What the decoder reads from a row's word, numbered as the opcode table numbers it: a row of at most 8 bits is a
micro-step index (the table's 3 bits in one byte), a wider row a 40-bit command word. -/
def decodeTableWord (nbits w : Nat) : Option Instr :=
  if nbits ≤ 8 then
    if w < 8 then (decodeMicro (BitVec.ofNat 3 w)).toOption else none
  else if w < 2 ^ 40 then (decodeCommand (BitVec.ofNat 40 w)).toOption else none

end Sys2Proof
end

