-- ==== Sys2Proof/Config.lean ====
section
/-! DEFINITION. The OPEN parameters of 00_scope.md R8 and the draws of R13, each an uninterpreted constant: no proof can see a value. -/

namespace Sys2Proof.Config

/-- `TX_DEPTH - 1`: the spec asks only that the depth is at least 1 (R8, R45, D21). -/
opaque txDepthLess1 : Nat

/-- `TX_DEPTH`, the depth of the trigger queue: OPEN, at least 1 (R8). -/
def txDepth : Nat := txDepthLess1 + 1

/-- `RX_DEPTH - 1` (R8, R45, D21). -/
opaque rxDepthLess1 : Nat

/-- `RX_DEPTH`, the depth of the handoff FIFO: OPEN, at least 1 (R8). -/
def rxDepth : Nat := rxDepthLess1 + 1

/-- `RST_INIT_DIR`: whether INIT_PINS makes RST an output (R8, D7). -/
opaque rstInitOutput : Bool

/-- `RST_INIT_LVL`: the output level INIT_PINS gives RST (R8, D7). -/
opaque rstInitLevel : Bool

/-- `ROM_BASE[31:1]` (R8, R80, D28). -/
opaque romBaseHalf : BitVec 31

/-- `ROM_BASE`: OPEN, assumed even (R80, D28). No rule of the block reads it; its clients do (R81, R82). -/
def romBase : Word32 := romBaseHalf ++ 0#1

/-- `CART_ADDR_BITS`: OPEN; no rule of the block reads it (R8, R72, 90_conflicts.md C1). -/
opaque cartAddrBits : Nat

/-- `HOLD_CYCLES - 1` (R8, D22). -/
opaque holdCyclesLess1 : Nat

/-- `HOLD_CYCLES`: OPEN, at least 1; no rule of the block depends on it (R8, R185, D22). -/
def holdCycles : Nat := holdCyclesLess1 + 1

/-- `COPROC_CLK_HZ`: OPEN; no rule of the block depends on it (R8, R195, D33). -/
opaque coprocClkHz : Nat

/-- The word the cartridge drives at position `k` of the burst begun at the latched address `{h, l}`, at the draw
numbered `n` (40_bus_pin_set.md R127): a fresh `Word16` under no law. -/
opaque cartData (h l : Word16) (k n : Nat) : Word16

/-- The level of an undriven control line, by the line's number in R33, at the draw numbered `n` (R128). -/
opaque freeLevel (n line : Nat) : Bool

/-- The levels of the AD lines that nobody drives, or that are in contention, at the draw numbered `n` (R128). -/
opaque freeAd (n : Nat) : Word16

/-- The word that a read of `CP_W` gives while it is `⊥`, at the draw numbered `n` (10_state.md R43 gives none). -/
opaque freeCpW (n : Nat) : Word16

/-- The unspecified reset value of `DIR` (10_state.md R34, R51: a draw per bit). -/
opaque resetDir : Word21

/-- The unspecified reset value of `OUT` (R35, R51: a draw per bit). -/
opaque resetOut : Word21

/-- The unspecified reset value of `LATCH_H` (R46, R51). -/
opaque resetLatchH : Word16

/-- The unspecified reset value of `LATCH_L` (R46, R51). -/
opaque resetLatchL : Word16

/-- The unspecified reset value of `RDCNT` (R46, R51). -/
opaque resetRdcnt : Nat

end Sys2Proof.Config
end

