-- ==== Sys2Proof/Machine/State.lean ====
section
/-! DEFINITION. The state of the bus engine and of the environment it writes (10_state.md), its value after power-on reset (R51, 70_reset_and_hazards.md R240), and the reasons a step can stop. -/

namespace Sys2Proof.Machine

/-- A line's direction (10_state.md R34, R48). -/
inductive Dir where
  /-- input mode, `DIR[i] = 0` -/
  | input
  /-- output mode, `DIR[i] = 1` -/
  | output
deriving DecidableEq, Repr

/-- The five control lines (R33). -/
inductive CtrlLine where
  /-- write-enable, line 16 -/
  | we
  /-- read-enable, line 17 -/
  | re
  /-- latch-low, line 18 -/
  | alel
  /-- latch-high, line 19 -/
  | aleh
  /-- the cartridge's reset, line 20 -/
  | rst
deriving DecidableEq, Repr

/-- The groups of control lines the pseudocode names (00_scope.md R14). -/
inductive CtrlGroup where
  /-- `CTRL4` = WE, RE, ALEL, ALEH -/
  | ctrl4
  /-- `CTRL3` = WE, ALEL, ALEH -/
  | ctrl3
  /-- one control line alone -/
  | only (l : CtrlLine)
deriving DecidableEq, Repr

/-- A group of lines (R14). -/
inductive Group where
  /-- AD0 to AD15 -/
  | ad
  /-- a group of control lines -/
  | ctrl (g : CtrlGroup)
deriving DecidableEq, Repr

/-- A group with a value of its kind: a `Word16` for AD, one bit for every line of a control group (R14, R48). -/
inductive GroupVal where
  /-- bit `i` of `w` for line `ADi` -/
  | ad (w : Word16)
  /-- the bit `v` for every line of `g` -/
  | ctrl (g : CtrlGroup) (v : Bool)
deriving DecidableEq, Repr

/-- What a pin event did (R48). -/
inductive PinAct where
  /-- `Cfg(G, d, v)` -/
  | cfg (gv : GroupVal) (d : Dir)
  /-- `Dir(G, d)` -/
  | dir (g : Group) (d : Dir)
  /-- `Lvl(G, v)` -/
  | lvl (gv : GroupVal)
  /-- `Smp(w)`, the group being AD -/
  | smp (w : Word16)
deriving DecidableEq, Repr

/-- A pin event, one entry of the trace (R47, R48). -/
structure Event where
  agent : Agent
  act   : PinAct
deriving DecidableEq, Repr

/-- One bit for each of the 21 lines of the Bus Pin Set (R33): `DIR` and `OUT` are two of these (R34, R35). -/
structure Lines where
  /-- lines 0 to 15, bit `i` for `ADi` -/
  ad   : Word16
  /-- line 16 -/
  we   : Bool
  /-- line 17 -/
  re   : Bool
  /-- line 18 -/
  alel : Bool
  /-- line 19 -/
  aleh : Bool
  /-- line 20 -/
  rst  : Bool
deriving DecidableEq, Repr

/-- The lines as R33 numbers them in a `Word21`. -/
def Lines.ofWord (w : Word21) : Lines where
  ad   := w.extractLsb' 0 16
  we   := w.getLsbD 16
  re   := w.getLsbD 17
  alel := w.getLsbD 18
  aleh := w.getLsbD 19
  rst  := w.getLsbD 20

/-- `ENGINE` (R39). -/
inductive Engine where
  /-- no engine, `00` -/
  | none
  /-- software-polled, `01` -/
  | polled
  /-- hardware-timed, `10` -/
  | timed
deriving DecidableEq, Repr

/-- `HOST_PHASE` (R41). -/
inductive HostPhase where
  /-- a command is accepted -/
  | ready
  /-- between the issue and the completion of a Timed READ_WORD -/
  | waitWord
deriving DecidableEq, Repr

/-- A trigger token: it carries no value (R45). -/
inductive Trigger where
  /-- `TRIG` (43_timed_coprocessor.md R181) -/
  | trig
deriving DecidableEq, Repr

/-- The causes of a fatal fault of the BLOCK (60_exceptions.md R210). Such a fault is an entry the spec describes (R212),
so it is taken in a next state; it is not an outcome of the model. -/
inductive FaultCode where
  | illegalCommand
  | busConflict
  | pinsNotInitialized
  | pinsReinit
  | engineNotInitialized
  | engineReinit
  | readWithoutAddress
deriving DecidableEq, Repr

/-- Whose turn a step is (20_memory.md R84: an execution is an interleaving of Host and co-processor steps). -/
inductive Turn where
  /-- the Host issues its next command (with `HOST_PHASE = WaitWord`: a Host that issues early, 60_exceptions.md R211) -/
  | issue
  /-- the Host attempts the completion of a Timed READ_WORD (43_timed_coprocessor.md R182) -/
  | complete
  /-- the co-processor's turn -/
  | coproc
deriving DecidableEq, Repr

/-- The reasons for which the model stops at a state with no step. -/
inductive Fault where
  /-- Raised by `coprocTurn` alone: the co-processor has the turn and `CP_STATE = 110`, where the spec gives it no step and
  calls the model stuck (43_timed_coprocessor.md R189). Safe: the state is never reached. -/
  | reservedMicroStep
deriving DecidableEq, Repr

/-- The reasons for which the model gives no meaning. -/
inductive Refusal where
  /-- Raised by `exec` for an instruction without a meaning, by its mnemonic. No arm does so. Safe. -/
  | notModelled (mnemonic : String)
deriving DecidableEq, Repr

/-- The state. `⊥` of the spec is `none`. -/
structure State where
  /-- `RD_DATA` (R30) -/
  rdData    : Option Word16
  /-- `CP_STATE` (R31) -/
  cpState   : Word3
  /-- `DIR` (R34): `true` and `1` are output mode -/
  dir       : Lines
  /-- `OUT` (R35) -/
  out       : Lines
  /-- `RE_OWNER` (R36) -/
  reOwner   : Agent
  /-- `PINS_READY` (R38) -/
  pinsReady : Bool
  /-- `ENGINE` (R39) -/
  engine    : Engine
  /-- `ADDR_SET` (R40) -/
  addrSet   : Bool
  /-- `HOST_PHASE` (R41) -/
  hostPhase : HostPhase
  /-- `FAULTED` (R42) -/
  faulted   : Bool
  /-- `FCODE` (R42) -/
  fcode     : Word4
  /-- `FCMD` (R42) -/
  fcmd      : Option Word40
  /-- `CP_W` (R43) -/
  cpW       : Option Word16
  /-- `TXQ`, oldest first (R45) -/
  txq       : List Trigger
  /-- `RXQ`, oldest first (R45) -/
  rxq       : List Word16
  /-- `LATCH_H` (R46) -/
  latchH    : Word16
  /-- `LATCH_L` (R46) -/
  latchL    : Word16
  /-- `RDCNT` (R46) -/
  rdcnt     : Nat
  /-- `TRACE`, oldest first (R47) -/
  trace     : List Event
  /-- The MODEL's own: the command words the Host has still to issue, in order (R32: the Host's concern; 20_memory.md R83). -/
  cmds      : List Word40
  /-- The MODEL's own: whose turns the coming steps are (20_memory.md R84). -/
  sched     : List Turn
  /-- The MODEL's own: words the environment will drive at the coming samples, the draw of 40_bus_pin_set.md R127 as an input
  (00_scope.md R13); where the list is empty the draw is `Config.cartData`. -/
  cart      : List Word16
  /-- The MODEL's own: the number of the next draw (R13). -/
  draws     : Nat
deriving DecidableEq, Repr

/-- The state after power-on reset (R51). The unspecified elements are free values of `Config`. -/
def State.reset : State where
  rdData    := none
  cpState   := 0b111#3
  dir       := Lines.ofWord Config.resetDir
  out       := Lines.ofWord Config.resetOut
  reOwner   := .host
  pinsReady := false
  engine    := .none
  addrSet   := false
  hostPhase := .ready
  faulted   := false
  fcode     := 0#4
  fcmd      := none
  cpW       := none
  txq       := []
  rxq       := []
  latchH    := Config.resetLatchH
  latchL    := Config.resetLatchL
  rdcnt     := Config.resetRdcnt
  trace     := []
  cmds      := []
  sched     := []
  cart      := []
  draws     := 0

end Sys2Proof.Machine
end

