-- ==== Sys2Proof/Machine/Operands.lean ====
section
/-! DEFINITION. The operand forms (30_encoding.md R103): the address halves, the group of SET_ADDRESS's step 2; the line groups (00_scope.md R14); serialization (20_memory.md R74, R75). -/

namespace Sys2Proof.Machine

/-- `high = A[31:16]` (00_scope.md R11). -/
def addrHigh (a : Word32) : Word16 := a.extractLsb' 16 16

/-- `low = A[15:0]` (R11). -/
def addrLow (a : Word32) : Word16 := a.extractLsb' 0 16

/-- `G2`, the group SET_ADDRESS's step 2 drives inactive: without RE in the Timed variant (41_address_controller.md R146). -/
def inactiveGroup (e : Engine) : CtrlGroup :=
  match e with
  | .timed => .ctrl3
  | .none => .ctrl4
  | .polled => .ctrl4

/-- The lines of a control group (R14). -/
def CtrlGroup.has : CtrlGroup → CtrlLine → Bool
  | .ctrl4, .we => true
  | .ctrl4, .re => true
  | .ctrl4, .alel => true
  | .ctrl4, .aleh => true
  | .ctrl4, .rst => false
  | .ctrl3, .we => true
  | .ctrl3, .re => false
  | .ctrl3, .alel => true
  | .ctrl3, .aleh => true
  | .ctrl3, .rst => false
  | .only k, l => decide (k = l)

/-- The group a value is for. -/
def GroupVal.group : GroupVal → Group
  | .ad _ => .ad
  | .ctrl g _ => .ctrl g

/-- Whether RE is a line of the group. -/
def Group.hasRe : Group → Bool
  | .ad => false
  | .ctrl g => g.has .re

/-- The line's number, R33. -/
def CtrlLine.number : CtrlLine → Nat
  | .we => 16
  | .re => 17
  | .alel => 18
  | .aleh => 19
  | .rst => 20

/-- The direction as its bit of `DIR` (R34). -/
def Dir.isOut : Dir → Bool
  | .input => false
  | .output => true

/-- The direction a bit of `DIR` stands for (R34). -/
def Dir.ofBit (b : Bool) : Dir := if b then .output else .input

/-- `RST_INIT_DIR` (R8). -/
def rstInitDir : Dir := Dir.ofBit Config.rstInitOutput

/-- `SER(w)`, high byte first (20_memory.md R74). -/
def ser (w : Word16) : List Word8 := [w.extractLsb' 8 8, w.extractLsb' 0 8]

/-- The serialization of a sequence of words (R75). -/
def serWords : List Word16 → List Word8
  | [] => []
  | w :: ws => ser w ++ serWords ws

/-- Two consecutive words read as one 32-bit big-endian value, `{w0, w1}` (R75). -/
def beWord32 (w0 w1 : Word16) : Word32 := w0 ++ w1

end Sys2Proof.Machine
end

