-- ==== Sys2Proof/Machine/Flags.lean ====
section
/-! DEFINITION. The status flags: the fault codes and the checks of every command in their order (60_exceptions.md R210, R211, R214), and the STATUS view (10_state.md R49). -/

namespace Sys2Proof.Machine

/-- The code of a fault, R210. -/
def FaultCode.code : FaultCode → Word4
  | .illegalCommand => 1#4
  | .busConflict => 2#4
  | .pinsNotInitialized => 3#4
  | .pinsReinit => 4#4
  | .engineNotInitialized => 5#4
  | .engineReinit => 6#4
  | .readWithoutAddress => 7#4

/-- "The first that applies is raised and no later check is made" (R214). -/
def firstCause : List (Bool × FaultCode) → Option FaultCode
  | [] => none
  | (applies, k) :: rest => if applies then some k else firstCause rest

/-- A command issued while `HOST_PHASE = WaitWord` (R210). -/
def busBusy (s : State) : Bool := decide (s.hostPhase ≠ .ready)

/-- The checks of INIT_PINS (40_bus_pin_set.md R134). -/
def initPinsChecks (s : State) : List (Bool × FaultCode) :=
  [(busBusy s, .busConflict), (s.pinsReady, .pinsReinit)]

/-- The checks of INIT_ENGINE (42_word_read_engine.md R160). -/
def initEngineChecks (s : State) : List (Bool × FaultCode) :=
  [(busBusy s, .busConflict), (!s.pinsReady, .pinsNotInitialized), (decide (s.engine ≠ .none), .engineReinit)]

/-- The checks of SET_ADDRESS (41_address_controller.md R140). -/
def setAddressChecks (s : State) : List (Bool × FaultCode) :=
  [(busBusy s, .busConflict), (!s.pinsReady, .pinsNotInitialized)]

/-- The checks of READ_WORD (42_word_read_engine.md R161). -/
def readWordChecks (s : State) : List (Bool × FaultCode) :=
  [(busBusy s, .busConflict), (!s.pinsReady, .pinsNotInitialized), (decide (s.engine = .none), .engineNotInitialized),
    (!s.addrSet, .readWithoutAddress)]

/-- `ENGINE` as its two bits (10_state.md R39). -/
def Engine.bits : Engine → BitVec 2
  | .none => 0b00#2
  | .polled => 0b01#2
  | .timed => 0b10#2

/-- `HOST_PHASE` as its bit (R41). -/
def HostPhase.bit : HostPhase → BitVec 1
  | .ready => 0#1
  | .waitWord => 1#1

/-- `RE_OWNER` as its bit of STATUS (R49). -/
def reOwnerBit : Agent → BitVec 1
  | .host => 0#1
  | .cp => 1#1

/-- The status view `STATUS` (R49), read by a harness and by no command. -/
def State.status (s : State) : Word32 :=
  0#18 ++ reOwnerBit s.reOwner ++ s.cpState ++ (if s.faulted then s.fcode else 0#4) ++ BitVec.ofBool s.faulted
    ++ s.hostPhase.bit ++ BitVec.ofBool s.addrSet ++ s.engine.bits ++ BitVec.ofBool s.pinsReady

/-- A harness's read of `RD_DATA` (R30): while it is `⊥` the harness "gets no word". -/
def State.readResult (s : State) : Option Word16 := s.rdData

end Sys2Proof.Machine
end

