-- ==== Sys2Proof/Machine/Ops.lean ====
section
/-! DEFINITION. The shared operations: raising a fault (60_exceptions.md R212), line levels and the cartridge's reactions (40_bus_pin_set.md R126 to R131), the pin primitives (R120 to R124), the queues (10_state.md R45), and the frames of a command and of a micro-step. -/

namespace Sys2Proof.Machine

/-- `raise Fault(code, C)` (60_exceptions.md R212): all that taking a fault does. No state is saved, no mode changes, and
there is no return from it (R217). -/
def raiseFault (k : FaultCode) (c : Word40) (s : State) : State :=
  { s with faulted := true, fcode := k.code, fcmd := some c }

/-- The bit of a control line. -/
def Lines.ctrl (x : Lines) : CtrlLine → Bool
  | .we => x.we
  | .re => x.re
  | .alel => x.alel
  | .aleh => x.aleh
  | .rst => x.rst

/-- The lines as the `Word21` of R33. -/
def Lines.word (x : Lines) : Word21 :=
  BitVec.ofBool x.rst ++ BitVec.ofBool x.aleh ++ BitVec.ofBool x.alel ++ BitVec.ofBool x.re ++ BitVec.ofBool x.we ++ x.ad

/-- The bit `b` on every line of a control group. -/
def Lines.putCtrl (x : Lines) (g : CtrlGroup) (b : Bool) : Lines :=
  { x with
    we   := if g.has .we then b else x.we
    re   := if g.has .re then b else x.re
    alel := if g.has .alel then b else x.alel
    aleh := if g.has .aleh then b else x.aleh
    rst  := if g.has .rst then b else x.rst }

/-- `OUT` with a value set on its group (R122). -/
def Lines.put (x : Lines) : GroupVal → Lines
  | .ad w => { x with ad := w }
  | .ctrl g v => x.putCtrl g v

/-- `DIR` with a direction set on a group (R121). -/
def Lines.setDir (x : Lines) (g : Group) (d : Dir) : Lines :=
  match g with
  | .ad => { x with ad := match d with | .input => 0x0000#16 | .output => 0xFFFF#16 }
  | .ctrl g => x.putCtrl g d.isOut

/-- `LVL` of a control line (40_bus_pin_set.md R126), evaluated as the draw numbered `n` where nobody drives it (R128). -/
def State.ctrlLevel (s : State) (l : CtrlLine) (n : Nat) : Bool :=
  if s.dir.ctrl l then s.out.ctrl l else Config.freeLevel n l.number

/-- Whether the cartridge drives the AD lines: RE asserted and every AD line an input (R126). -/
def State.cartDrives (s : State) (n : Nat) : Bool :=
  !s.ctrlLevel .re n && decide (s.dir.ad = 0#16)

/-- `CartData(LATCH_H, LATCH_L, RDCNT)` as the draw numbered `n` (R127). -/
def State.cartWord (s : State) (n : Nat) : Word16 := Config.cartData s.latchH s.latchL s.rdcnt n

/-- Contention: RE asserted while some AD line is an output (R128). -/
def State.contends (s : State) (n : Nat) : Bool :=
  !s.ctrlLevel .re n && decide (s.dir.ad ≠ 0#16)

/-- The levels of AD0 to AD15 at one instant (R126, R128), `w` being the word the cartridge drives if it drives one. In
contention every AD line is a draw (R128); with RE inactive an output line is at its `OUT` and an input line is a draw. -/
def State.adLevels (s : State) (w : Word16) (n : Nat) : Word16 :=
  if s.cartDrives n then w
  else if s.contends n then Config.freeAd n
  else if s.dir.ad = 0xFFFF#16 then s.out.ad
  else (s.out.ad &&& s.dir.ad) ||| (Config.freeAd n &&& ~~~ s.dir.ad)

/-- `LVL(i)` of the line numbered `i` (R126), as a harness evaluates it. -/
def State.lvl (s : State) (i n : Nat) : Bool :=
  if i < 16 then (s.adLevels (s.cartWord n) n).getLsbD i
  else if i = 16 then s.ctrlLevel .we n
  else if i = 17 then s.ctrlLevel .re n
  else if i = 18 then s.ctrlLevel .alel n
  else if i = 19 then s.ctrlLevel .aleh n
  else s.ctrlLevel .rst n

/-- `busval()` (R131) as the draw numbered `n`. -/
def State.busval (s : State) (n : Nat) : Word16 := s.adLevels (s.cartWord n) n

/-- Whether an event took a line from 0 to 1; the levels before and after are two evaluations (R129). -/
def rises (before after : State) (l : CtrlLine) : Bool :=
  !before.ctrlLevel l after.draws && after.ctrlLevel l (after.draws + 1)

/-- The high latch and `RDCNT` after the end of an ALEH pulse (R129, first clause). -/
def captureHigh (before after : State) : State :=
  { after with
    latchH := if rises before after .aleh then after.busval (after.draws + 2) else after.latchH
    rdcnt  := if rises before after .aleh then 0 else after.rdcnt }

/-- The word the low latch captures at the end of an ALEL pulse (R129, second clause, after the first). -/
def lowCapture (before after : State) : Word16 := (captureHigh before after).busval (after.draws + 3)

/-- `RDCNT` after an event: a capture resets it, then the end of a read strobe advances it (R129, R130). -/
def reactCount (before after : State) : Nat :=
  let k := if rises before after .aleh || rises before after .alel then 0 else after.rdcnt
  if rises before after .re then k + 1 else k

/-- `react(before, after)` (R129, R130), its three clauses in order. Each evaluation of a level is a draw of its own: the
levels before, the levels after, and the bus value of either latch. -/
def react (before after : State) : State :=
  { after with
    latchH := (captureHigh before after).latchH
    latchL := if rises before after .alel then lowCapture before after else after.latchL
    rdcnt  := reactCount before after
    draws  := after.draws + 4 }

/-- Every primitive appends exactly one event (R124). -/
def State.log (s : State) (ag : Agent) (a : PinAct) : State := { s with trace := s.trace ++ [⟨ag, a⟩] }

/-- `Cfg(G, d, v)` (R120). -/
def cfg (ag : Agent) (gv : GroupVal) (d : Dir) (s : State) : State :=
  react s (State.log { s with dir := s.dir.setDir gv.group d, out := s.out.put gv } ag (.cfg gv d))

/-- `SetDir(G, d)` (R121). -/
def setDir (ag : Agent) (g : Group) (d : Dir) (s : State) : State :=
  react s (State.log { s with dir := s.dir.setDir g d } ag (.dir g d))

/-- How a primitive ends: the transition goes on, or a fault has ended it (R122, R212). -/
inductive Flow where
  /-- go on in this state -/
  | go (s : State)
  /-- a fault has been raised; the transition makes no further change -/
  | stop (s : State)
deriving DecidableEq, Repr

/-- Go on with a primitive that may raise a fault. -/
def Flow.andThen (f : Flow) (k : State → Flow) : Flow :=
  match f with
  | .go s => k s
  | .stop s => .stop s

/-- Go on with a change that raises no fault. -/
def Flow.thenDo (f : Flow) (k : State → State) : Flow :=
  match f with
  | .go s => .go (k s)
  | .stop s => .stop s

/-- The state in which a transition ends. -/
def Flow.final : Flow → State
  | .go s => s
  | .stop s => s

/-- The effect of `Drive(G, v)` by an agent that may drive the group (R122). -/
def driveLines (ag : Agent) (gv : GroupVal) (s : State) : State :=
  react s (State.log { s with out := s.out.put gv } ag (.lvl gv))

/-- `Drive(G, v)` (R122), `c` being the current command: driving RE is the owner's alone. -/
def drive (ag : Agent) (c : Word40) (gv : GroupVal) (s : State) : Flow :=
  if gv.group.hasRe = true ∧ ag ≠ s.reOwner then .stop (raiseFault .busConflict c s)
  else .go (driveLines ag gv s)

/-- The word a sample gives (R123, R126): what the cartridge drives comes from the environment's inputs where it has
listed one, and is a draw otherwise (R127). -/
def State.sampleWord (s : State) : Word16 :=
  s.adLevels (s.cart.head?.getD (s.cartWord s.draws)) s.draws

/-- The state after `Sample()` (R123): one event; no level changes and nothing reacts. -/
def sampleStep (ag : Agent) (s : State) : State :=
  State.log
    { s with
      cart  := if s.cartDrives s.draws then s.cart.tail else s.cart
      draws := s.draws + 1 }
    ag (.smp s.sampleWord)

/-- `full(TXQ)` (10_state.md R45). -/
def State.txFull (s : State) : Bool := decide (Config.txDepth ≤ s.txq.length)

/-- `full(RXQ)` (R45). -/
def State.rxFull (s : State) : Bool := decide (Config.rxDepth ≤ s.rxq.length)

/-- `Push(TXQ, TRIG)` (R45). -/
def pushTrigger (s : State) : State := { s with txq := s.txq ++ [.trig] }

/-- `Push(RXQ, w)` (R45). -/
def pushWord (w : Word16) (s : State) : State := { s with rxq := s.rxq ++ [w] }

/-- The frame of a command: nothing while the block is halted (60_exceptions.md R213), the fault of the first check that
applies (R214), else the effect. -/
def command (c : Word40) (checks : List (Bool × FaultCode)) (s : State)
    (effect : Host.Outcome State Fault Refusal) : Host.Outcome State Fault Refusal :=
  if s.faulted then .next s
  else
    match firstCause checks with
    | some k => .next (raiseFault k c s)
    | none => effect

/-- The frame of a micro-step: the co-processor performs `Un` only at `CP_STATE = Un`, and nothing while the block is
halted (43_timed_coprocessor.md, before R180; R189). -/
def microStep (u : Word3) (s effect : State) : Host.Outcome State Fault Refusal :=
  .next (if s.faulted = true ∨ s.cpState ≠ u then s else effect)

/-- A command word that decodes to `Illegal` (30_encoding.md R104): the fault, and no other effect. -/
def illegalCommand (c : Word40) (s : State) : State := raiseFault .illegalCommand c s

end Sys2Proof.Machine
end

