-- ==== Sys2Proof/Machine/AddressBus.lean ====
section
/-! DEFINITION. The Address Bus Controller: SET_ADDRESS (41_address_controller.md R140). -/

namespace Sys2Proof.Machine

/-- The seven steps of R140, events E1 to E9, then `ADDR_SET`. -/
def setAddressEffect (a : Word32) (s : State) : Flow :=
  let c := setAddressWord a
  (drive .host c (.ctrl (inactiveGroup s.engine) true) (cfg .host (.ad 0x0000#16) .output s)
    |>.andThen (drive .host c (.ad (addrHigh a)))
    |>.andThen (drive .host c (.ctrl (.only .aleh) false))
    |>.andThen (drive .host c (.ctrl (.only .aleh) true))
    |>.andThen (drive .host c (.ad (addrLow a)))
    |>.andThen (drive .host c (.ctrl (.only .alel) false))
    |>.andThen (drive .host c (.ctrl (.only .alel) true))
    |>.thenDo (setDir .host .ad .input)
    |>.thenDo fun s => { s with addrSet := true })

/-- SET_ADDRESS (R140). -/
def execSetAddress (a : Word32) (s : State) : Host.Outcome State Fault Refusal :=
  command (setAddressWord a) (setAddressChecks s) s (.next (setAddressEffect a s).final)

end Sys2Proof.Machine
end

