-- ==== Sys2Proof/Machine/Coprocessor.lean ====
section
/-! DEFINITION. The timing co-processor's six micro-steps (43_timed_coprocessor.md R183 to R188). -/

namespace Sys2Proof.Machine

/-- The effect of U0 (R183): hold until TXQ has a token, then consume the oldest. -/
def takeTrigger (s : State) : State :=
  match s.txq with
  | [] => s
  | _ :: rest => { s with txq := rest, cpState := 0b001#3 }

/-- The effect of U1 and U4 (R184, R187): the co-processor drives RE and goes on to the micro-step `u`. The current command
is the READ_WORD in flight. -/
def strobeRe (level : Bool) (u : Word3) (s : State) : State :=
  (drive .cp readWordWord (.ctrl (.only .re) level) s |>.thenDo fun s => { s with cpState := u }).final

/-- The effect of U3 (R186): one snapshot of AD0 to AD15 into `CP_W`. -/
def sampleToCpW (s : State) : State := { sampleStep .cp s with cpW := some s.sampleWord, cpState := 0b100#3 }

/-- The word a read of `CP_W` gives (R43): the word it holds. While it holds none (`⊥`) the spec gives the read no value, and
the word is free. DESIGN CHOICE, log entry 10. -/
def State.cpWord (s : State) : Word16 := s.cpW.getD (Config.freeCpW s.draws)

/-- The effect of U5 (R188): hold while RXQ is full, then push `CP_W`, which keeps what it holds. A read of `⊥` is a draw. -/
def pushCpW (s : State) : State :=
  if s.rxFull then s
  else
    { pushWord s.cpWord s with
      cpState := 0b000#3
      draws   := if s.cpW.isSome then s.draws else s.draws + 1 }

/-- U0 uWAIT_TRIG (R183). -/
def execUWaitTrig (s : State) : Host.Outcome State Fault Refusal := microStep 0b000#3 s (takeTrigger s)

/-- U1 uRE_ASSERT (R184). -/
def execUReAssert (s : State) : Host.Outcome State Fault Refusal :=
  microStep 0b001#3 s (strobeRe false 0b010#3 s)

/-- U2 uHOLD (R185): `HOLD_CYCLES` cycles pass in one step; the model has no time. -/
def execUHold (s : State) : Host.Outcome State Fault Refusal :=
  microStep 0b010#3 s { s with cpState := 0b011#3 }

/-- U3 uSAMPLE (R186). -/
def execUSample (s : State) : Host.Outcome State Fault Refusal := microStep 0b011#3 s (sampleToCpW s)

/-- U4 uRE_DEASSERT (R187). -/
def execUReDeassert (s : State) : Host.Outcome State Fault Refusal :=
  microStep 0b100#3 s (strobeRe true 0b101#3 s)

/-- U5 uPUSH (R188). -/
def execUPush (s : State) : Host.Outcome State Fault Refusal := microStep 0b101#3 s (pushCpW s)

end Sys2Proof.Machine
end

