-- ==== Sys2Proof/Machine/PinSet.lean ====
section
/-! DEFINITION. The Bus Pin Set's command, INIT_PINS (40_bus_pin_set.md R134). -/

namespace Sys2Proof.Machine

/-- The effect of INIT_PINS once its checks pass: E1, E2, E3, then `PINS_READY` (R134). -/
def initPinsEffect (s : State) : State :=
  let s := cfg .host (.ctrl .ctrl4 true) .output s
  let s := setDir .host .ad .input s
  let s := cfg .host (.ctrl (.only .rst) Config.rstInitLevel) rstInitDir s
  { s with pinsReady := true }

/-- INIT_PINS (R134). -/
def execInitPins (s : State) : Host.Outcome State Fault Refusal :=
  command initPinsWord (initPinsChecks s) s (.next (initPinsEffect s))

end Sys2Proof.Machine
end

