-- ==== Sys2Proof/Machine/ReadEngine.lean ====
section
/-! DEFINITION. The Word Read Engine: INIT_ENGINE, READ_WORD in both variants (42_word_read_engine.md R160 to R162) and the Host's completion of a Timed read (43_timed_coprocessor.md R181, R182). -/

namespace Sys2Proof.Machine

/-- The start of the co-processor (R160, `V = 1`): it takes RE, the queues and `CP_W` are emptied, RE is held inactive. -/
def startCoprocessor (c : Word40) (s : State) : Flow :=
  drive .cp c (.ctrl (.only .re) true)
      { s with engine := .timed, reOwner := .cp, txq := [], rxq := [], cpW := none }
    |>.thenDo fun s => { s with cpState := 0b000#3 }

/-- INIT_ENGINE (R160): `v = 0` Polled, no pin event; `v = 1` Timed. -/
def execInitEngine (v : BitVec 1) (s : State) : Host.Outcome State Fault Refusal :=
  command (initEngineWord v) (initEngineChecks s) s
    (if v = 0#1 then .next { s with engine := .polled }
     else .next (startCoprocessor (initEngineWord v) s).final)

/-- READ_WORD, Polled variant (R162). -/
def readPolled (s : State) : Flow :=
  drive .host readWordWord (.ctrl (.only .re) false) s
    |>.andThen fun s =>
      drive .host readWordWord (.ctrl (.only .re) true) (sampleStep .host s)
        |>.thenDo fun t => { t with rdData := some s.sampleWord }

/-- READ_WORD, Timed variant, issue (43_timed_coprocessor.md R181): a hold while TXQ is full. -/
def readTimedIssue (s : State) : State :=
  if s.txFull then s else { pushTrigger s with hostPhase := .waitWord }

/-- READ_WORD (42_word_read_engine.md R161): by the engine, the Polled read or the Timed read's issue (an engine
is there once the checks pass). -/
def execReadWord (s : State) : Host.Outcome State Fault Refusal :=
  command readWordWord (readWordChecks s) s
    (if s.engine = .timed then .next (readTimedIssue s) else .next (readPolled s).final)

/-- READ_WORD, Timed variant, completion (43_timed_coprocessor.md R182): the second Host transition of the command. It is
enabled only in `WaitWord`, and holds while RXQ is empty (R125). -/
def completeReadWord (s : State) : State :=
  if s.faulted = true ∨ s.hostPhase ≠ .waitWord then s
  else
    match s.rxq with
    | [] => s
    | w :: rest => { s with rxq := rest, rdData := some w, hostPhase := .ready }

end Sys2Proof.Machine
end

