-- ==== Sys2Proof/Machine/Dispatch.lean ====
section
/-! DEFINITION. The meaning of every instruction: one arm per constructor of Instr. -/

namespace Sys2Proof.Machine

/-- One transition of the instruction's agent that performs it. -/
def exec (i : Instr) (s : State) : Host.Outcome State Fault Refusal :=
  match i with
  | .initPins => Sys2Proof.Machine.execInitPins s
  | .initEngine v => Sys2Proof.Machine.execInitEngine v s
  | .setAddress a => Sys2Proof.Machine.execSetAddress a s
  | .readWord => Sys2Proof.Machine.execReadWord s
  | .uWaitTrig => Sys2Proof.Machine.execUWaitTrig s
  | .uReAssert => Sys2Proof.Machine.execUReAssert s
  | .uHold => Sys2Proof.Machine.execUHold s
  | .uSample => Sys2Proof.Machine.execUSample s
  | .uReDeassert => Sys2Proof.Machine.execUReDeassert s
  | .uPush => Sys2Proof.Machine.execUPush s

end Sys2Proof.Machine
end

