-- ==== Sys2Proof/Machine/Agents.lean ====
section
/-! DEFINITION. The turns of the two agents (00_scope.md R15, 20_memory.md R83, R84): how the Host issues and completes a command and how the co-processor takes a micro-step. -/

namespace Sys2Proof.Machine

/-- Whether an instruction would hold in this state (40_bus_pin_set.md R125): READ_WORD's issue at a full TXQ, U0 at an
empty TXQ, U5 at a full RXQ. -/
def holds : Instr → State → Bool
  | .readWord, s => !s.faulted && (firstCause (readWordChecks s)).isNone && decide (s.engine = .timed) && s.txFull
  | .uWaitTrig, s => !s.faulted && decide (s.cpState = 0b000#3) && s.txq.isEmpty
  | .uPush, s => !s.faulted && decide (s.cpState = 0b101#3) && s.rxFull
  | .initPins, _ => false
  | .initEngine _, _ => false
  | .setAddress _, _ => false
  | .uReAssert, _ => false
  | .uHold, _ => false
  | .uSample, _ => false
  | .uReDeassert, _ => false

/-- The Host issues its next command. An illegal word raises its fault before any other check (30_encoding.md R104); a
command that holds stays the next one; with no command left the Host has no step. -/
def hostIssue (s : State) : Host.Outcome State Fault Refusal :=
  match s.cmds with
  | [] => .next s
  | c :: rest =>
    match decodeCommand c with
    | .error _ => .next (illegalCommand c { s with cmds := rest })
    | .ok i => if holds i s then .next s else exec i { s with cmds := rest }

/-- The co-processor's turn: the micro-step `CP_STATE` selects (R107). In `OFF` it takes no step, at `110` it is stuck
(43_timed_coprocessor.md R189). -/
def coprocTurn (s : State) : Host.Outcome State Fault Refusal :=
  match decodeMicro s.cpState with
  | .ok i => exec i s
  | .error .coprocessorOff => .next s
  | .error _ => .fault .reservedMicroStep

/-- One turn of the agent that has it. -/
def takeTurn (t : Turn) (s : State) : Host.Outcome State Fault Refusal :=
  match t with
  | .issue => hostIssue s
  | .complete => .next (completeReadWord s)
  | .coproc => coprocTurn s

/-- The Host gets commands to issue, and the coming turns are fixed: how a program comes to run. -/
def State.withProgram (s : State) (cmds : List Word40) (sched : List Turn) : State :=
  { s with cmds := s.cmds ++ cmds, sched := s.sched ++ sched }

/-- The next turn's agent fetches the code word `w`: a micro-step index in `CP_STATE`, or the Host's next command word. -/
def placeCodeWord (s : State) (nbits w : Nat) : State :=
  if nbits ≤ 8 then { s with cpState := BitVec.ofNat 3 w, sched := .coproc :: s.sched }
  else { s with cmds := BitVec.ofNat 40 w :: s.cmds, sched := .issue :: s.sched }

end Sys2Proof.Machine
end

