-- ==== Sys2Proof/Machine/Step.lean ====
section
/-! DEFINITION. One step of the machine: the next turn of the interleaving (20_memory.md R84); none while the block is halted (60_exceptions.md R213) and none where no turn is listed. -/

namespace Sys2Proof.Machine

/-- One step. A halted block and a block nobody acts on stay as they are. -/
def step (s : State) : Host.Outcome State Fault Refusal :=
  if s.faulted then .next s
  else
    match s.sched with
    | [] => .next s
    | t :: rest => takeTurn t { s with sched := rest }

/-- `s` with a code word of the opcode table where the next step fetches its instruction: the next turn is its agent's. -/
def State.withFetchWord (s : State) (nbits w : Nat) : State := placeCodeWord s nbits w

end Sys2Proof.Machine
end

