-- ==== Sys2Proof/Machine/Cartridge.lean ====
section
/-! DEFINITION. The reference cartridge (40_bus_pin_set.md R133), for test vectors only: no step of the machine reads it (R127 keeps the draw); and the address-map facts of the block's clients (20_memory.md R81, R82). -/

namespace Sys2Proof.Machine

/-- A ROM image of `size` bytes, byte `i` being `bytes.getD i 0`, placed at `base` (R133; R80). -/
structure RefCartridge where
  bytes : List Word8
  size  : Nat
  base  : Word32
deriving DecidableEq, Repr

/-- `SIZE` is even and at least 2 (R133), the image has `SIZE` bytes, and the base is even (R80). -/
def RefCartridge.wellFormed (r : RefCartridge) : Bool :=
  decide (2 ≤ r.size) && decide (r.size % 2 = 0) && decide (r.bytes.length = r.size) && decide (r.base.toNat % 2 = 0)

/-- `off` of R133 for the address `a`: the offset into the image, mirrored every `SIZE` bytes, bit 0 dropped. -/
def RefCartridge.offset (r : RefCartridge) (a : Word32) : Nat :=
  let m := (a - r.base).toNat % r.size
  m - m % 2

/-- The word at the offset `off`: `{R[off], R[off+1]}`. -/
def RefCartridge.wordAt (r : RefCartridge) (off : Nat) : Word16 :=
  r.bytes.getD off 0#8 ++ r.bytes.getD (off + 1) 0#8

/-- `CartData_ref(H, L, k)` (R133). -/
def RefCartridge.cartData (r : RefCartridge) (h l : Word16) (k : Nat) : Word16 :=
  r.wordAt (r.offset (beWord32 h l + BitVec.ofNat 32 (2 * k)))

/-- The first `n` words of the burst begun at `a` (20_memory.md R76). -/
def RefCartridge.burst (r : RefCartridge) (a : Word32) (n : Nat) : List Word16 :=
  (List.range n).map fun k => r.cartData (addrHigh a) (addrLow a) k

/-- The checksum bytes of a header read as `ws`, the words of the burst from `ROM_BASE`: bytes `0x10` to `0x13` (20_memory.md R81). -/
def headerChecksum (ws : List Word16) : List Word8 := serWords ((ws.drop 8).take 2)

/-- The name bytes of a header: bytes `0x20` to `0x33` (R81). -/
def headerName (ws : List Word16) : List Word8 := serWords ((ws.drop 16).take 10)

/-- `mirror_address` of a size candidate in MB (R82). -/
def mirrorAddress (candidate : Nat) : Word32 := Config.romBase + BitVec.ofNat 32 (candidate * 0x100000)

/-- Where chunk `j` of a dump starts (R82); a chunk is a burst of 256 words. -/
def chunkAddress (j : Nat) : Word32 := Config.romBase + BitVec.ofNat 32 (512 * j)

end Sys2Proof.Machine
end

