-- ==== Sys2Proof/Safety.lean ====
section
/-! DEFINITION. What counts as a safe run, in the terms the claims use: the invariant of the block, the replay of a trace on the lines, the words a cartridge may give, and the named assumptions. -/

namespace Sys2Proof.Machine

/-- Neither halted nor waiting: a command is accepted (10_state.md R41, 60_exceptions.md R213). -/
abbrev Accepting (s : State) : Prop := s.faulted = false ∧ s.hostPhase = .ready

/-- The lines whose edges the cartridge reacts to are outputs of the block, so that no level of theirs is a draw (R126, R129). -/
abbrev StrobesDriven (s : State) : Prop := s.dir.re = true ∧ s.dir.alel = true ∧ s.dir.aleh = true

/-- Between commands: WE, RE, ALEL and ALEH outputs at their inactive level, the AD lines inputs (40_bus_pin_set.md R134,
41_address_controller.md R143). -/
abbrev PinsIdle (s : State) : Prop :=
  StrobesDriven s ∧ s.dir.we = true ∧ s.dir.ad = 0#16 ∧
    s.out.we = true ∧ s.out.re = true ∧ s.out.alel = true ∧ s.out.aleh = true

/-- The co-processor idles at U0 with both queues empty (43_timed_coprocessor.md R192). -/
abbrev CoprocIdle (s : State) : Prop := s.cpState = 0b000#3 ∧ s.txq = [] ∧ s.rxq = []

/-- The trigger of a Timed read waits (R192, first case). -/
abbrev TriggerWaits (s : State) : Prop := s.txq = [.trig] ∧ s.cpState = 0b000#3 ∧ s.rxq = []

/-- The co-processor is at U1 to U5 (R192, second case). -/
abbrev ReadInProgress (s : State) : Prop :=
  s.txq = [] ∧ 1 ≤ s.cpState.toNat ∧ s.cpState.toNat ≤ 5 ∧ s.rxq = []

/-- The word of a Timed read waits (R192, third case). -/
abbrev WordWaits (s : State) : Prop := s.txq = [] ∧ s.cpState = 0b000#3 ∧ s.rxq.length = 1

/-- RE is asserted between U1 and U4, and at no other time (R184, R187, 70_reset_and_hazards.md R246). -/
def reStrobed (s : State) : Bool := decide (2 ≤ s.cpState.toNat ∧ s.cpState.toNat ≤ 4)

/-- The block's invariant: what holds of every state a run from reset reaches. -/
structure Inv (s : State) : Prop where
  /-- no fault is recorded while `FAULTED = 0` (10_state.md R42, R49) -/
  noFault : s.faulted = false → s.fcode = 0#4 ∧ s.fcmd = none
  /-- a recorded fault has a code of 1 to 7 and its command (60_exceptions.md R210) -/
  faultRecord : s.faulted = true → 1 ≤ s.fcode.toNat ∧ s.fcode.toNat ≤ 7 ∧ s.fcmd.isSome = true
  /-- before INIT_PINS nothing else is set up (70_reset_and_hazards.md R243) -/
  unready : s.pinsReady = false → s.engine = .none ∧ s.addrSet = false
  /-- after INIT_PINS the four control lines are outputs and the AD lines inputs -/
  pinDirs : s.pinsReady = true → StrobesDriven s ∧ s.dir.we = true ∧ s.dir.ad = 0#16
  /-- WE, ALEL and ALEH rest at 1 -/
  pinLevels : s.pinsReady = true → s.out.we = true ∧ s.out.alel = true ∧ s.out.aleh = true
  /-- RE is asserted exactly while a micro-step strobe is under way -/
  reLevel : s.pinsReady = true → s.out.re = !reStrobed s
  /-- without the Timed engine the co-processor is OFF and owns nothing (R189, R36) -/
  notTimed : s.engine ≠ .timed →
    s.cpState = 0b111#3 ∧ s.txq = [] ∧ s.rxq = [] ∧ s.reOwner = .host ∧ s.hostPhase = .ready
  /-- with it the co-processor owns RE (R180) -/
  timedOwner : s.engine = .timed → s.reOwner = .cp
  /-- R192, `HOST_PHASE = Ready` -/
  timedIdle : s.engine = .timed → s.hostPhase = .ready → CoprocIdle s
  /-- R192, `HOST_PHASE = WaitWord`; a read is issued only after a SET_ADDRESS -/
  timedBusy : s.hostPhase = .waitWord →
    s.addrSet = true ∧ (TriggerWaits s ∨ ReadInProgress s ∨ WordWaits s)
  /-- at U4 and U5 the co-processor holds the sampled word (R186, R188) -/
  sampled : 4 ≤ s.cpState.toNat → s.cpState.toNat ≤ 5 → s.cpW.isSome = true

/-- `w` is a word the cartridge drives in `s`: the environment's next input, or any draw of `CartData(LATCH_H, LATCH_L,
RDCNT)` (R127). -/
def CartridgeGives (s : State) (w : Word16) : Prop :=
  match s.cart with
  | x :: _ => w = x
  | [] => ∃ n, w = Config.cartData s.latchH s.latchL s.rdcnt n

/-- R127's named assumption, which no rule and no invariant uses: the cartridge is deterministic. -/
def DeterministicCartridge : Prop :=
  ∃ f : Word16 → Word16 → Nat → Word16, ∀ h l k n, Config.cartData h l k n = f h l k

/-- What a pin event does to the lines, as (`DIR`, `OUT`) (R120 to R123). -/
def PinAct.apply (a : PinAct) (p : Lines × Lines) : Lines × Lines :=
  match a with
  | .cfg gv d => (p.1.setDir gv.group d, p.2.put gv)
  | .dir g d => (p.1.setDir g d, p.2)
  | .lvl gv => (p.1, p.2.put gv)
  | .smp _ => p

/-- The lines after a list of events. -/
def replay (p : Lines × Lines) : List Event → Lines × Lines
  | [] => p
  | e :: es => replay (e.act.apply p) es

/-- RE is not driven to 1 while some AD line is an output (R128). -/
def contention (p : Lines × Lines) : Bool := !(p.1.re && p.2.re) && decide (p.1.ad ≠ 0#16)

/-- No event of the list ends in contention. -/
def contentionFree (p : Lines × Lines) : List Event → Bool
  | [] => true
  | e :: es => !contention (e.act.apply p) && contentionFree (e.act.apply p) es

/-- The value an event sets on a group, if it sets one. -/
def PinAct.value : PinAct → Option GroupVal
  | .cfg gv _ => some gv
  | .dir _ _ => none
  | .lvl gv => some gv
  | .smp _ => none

/-- Whether an event drives the control line `l` to `b`. -/
def Event.sets (e : Event) (l : CtrlLine) (b : Bool) : Bool :=
  match e.act.value with
  | some (.ctrl g v) => g.has l && v == b
  | _ => false

/-- Whether an event sets the output value of RE (R122). -/
def Event.drivesRe (e : Event) : Bool := e.sets .re true || e.sets .re false

end Sys2Proof.Machine
end

