-- ==== Sys2Proof/Certificates/Slice0/Obligations.lean ====
section
/-! DEFINITION. The statements about the model, each with the rule of spec/ it formalises; nothing is proved here. -/

open Sys2Proof Sys2Proof.Machine Host

/-! ## Encoding (30_encoding.md) -/

/-- R100 to R104, R107: decoding the encoding of an instruction gives it back, for every instruction and operand. -/
def Obligations.DecodeEncodeRoundTrip : Prop := ∀ i : Instr, decode (encode i) = .ok i

/-- R104, R107: a code word that decodes to an instruction is that instruction's encoding, so no two words share a meaning. -/
def Obligations.DecodedWordIsItsEncoding : Prop := ∀ (w : CodeWord) (i : Instr), decode w = .ok i → encode i = w

/-- R104: what every 40-bit word decodes to, by its bits. -/
def Obligations.CommandDecodeTable : Prop :=
  ∀ c : Word40,
    (decodeCommand c = .ok .initPins ↔ c.extractLsb' 32 8 = 0x01#8 ∧ c.extractLsb' 0 32 = 0#32) ∧
    (∀ v : BitVec 1, decodeCommand c = .ok (.initEngine v) ↔
      c.extractLsb' 32 8 = 0x02#8 ∧ (∀ j, 1 ≤ j → j < 32 → c.getLsbD j = false) ∧ v.getLsbD 0 = c.getLsbD 0) ∧
    (∀ a : Word32, decodeCommand c = .ok (.setAddress a) ↔
      c.extractLsb' 32 8 = 0x03#8 ∧ a = c.extractLsb' 0 32) ∧
    (decodeCommand c = .ok .readWord ↔ c.extractLsb' 32 8 = 0x04#8 ∧ c.extractLsb' 0 32 = 0#32) ∧
    (∀ i : Instr, decodeCommand c = .ok i → i.agent = .host)

/-- R105: which words are illegal, and that issuing one raises ILLEGAL_COMMAND, whatever the flags. How the
model lists the words to come is log entry 2, that a fault is a next state log entry 1, that it is raised at the issue log
entry 18. -/
def Obligations.ReservedWordsFault : Prop :=
  ∀ c : Word40,
    ((c.extractLsb' 32 8 = 0x00#8 ∨ 5 ≤ (c.extractLsb' 32 8).toNat) ∨
      ((c.extractLsb' 32 8 = 0x01#8 ∨ c.extractLsb' 32 8 = 0x04#8) ∧ c.extractLsb' 0 32 ≠ 0#32) ∨
      (c.extractLsb' 32 8 = 0x02#8 ∧ ∃ j, 1 ≤ j ∧ j < 32 ∧ c.getLsbD j = true) ↔
      ∃ e, decodeCommand c = .error e) ∧
    ((∃ e, decodeCommand c = .error e) →
      ∀ (s : State) (ts : List Turn) (cs : List Word40), s.faulted = false → s.sched = .issue :: ts → s.cmds = c :: cs →
        step s = .next { s with sched := ts, cmds := cs, faulted := true, fcode := 1#4, fcmd := some c }) ∧
    (c = 0#40 → ∃ e, decodeCommand c = .error e)

/-- R110: the encoding examples. -/
def Obligations.EncodingExamples : Prop :=
  decodeCommand 0x0100000000#40 = .ok .initPins ∧
  decodeCommand 0x0200000001#40 = .ok (.initEngine 1#1) ∧
  decodeCommand 0x0312345678#40 = .ok (.setAddress 0x12345678#32) ∧
  decodeCommand 0x0400000000#40 = .ok .readWord ∧
  decodeCommand 0x0400000001#40 = .error .reservedOperand ∧
  decodeCommand 0x0500000000#40 = .error .reservedOpcode

/-- R106: how many of the command words decode to each command, and how many are illegal. -/
def Obligations.CommandWordCount : Prop :=
  Nat.card { c : Word40 // ∃ a, decodeCommand c = .ok (.setAddress a) } = 2 ^ 32 ∧
  Nat.card { c : Word40 // ∃ v, decodeCommand c = .ok (.initEngine v) } = 2 ∧
  Nat.card { c : Word40 // decodeCommand c = .ok .initPins } = 1 ∧
  Nat.card { c : Word40 // decodeCommand c = .ok .readWord } = 1 ∧
  Nat.card { c : Word40 // ∃ e, decodeCommand c = .error e } = 2 ^ 40 - 2 ^ 32 - 4

/-- R107: the micro-step each value of `CP_STATE` selects; `110` and `111` select none. -/
def Obligations.MicroStepTable : Prop :=
  decodeMicro 0b000#3 = .ok .uWaitTrig ∧ decodeMicro 0b001#3 = .ok .uReAssert ∧ decodeMicro 0b010#3 = .ok .uHold ∧
  decodeMicro 0b011#3 = .ok .uSample ∧ decodeMicro 0b100#3 = .ok .uReDeassert ∧ decodeMicro 0b101#3 = .ok .uPush ∧
  decodeMicro 0b110#3 = .error .reservedMicroStep ∧ decodeMicro 0b111#3 = .error .coprocessorOff

/-! ## The step (20_memory.md R83, R84; 60_exceptions.md R213) -/

/-- The Host's turn: a step issues the next command word, and is `exec` of the instruction it decodes to, past that word and that
turn; a command that holds (R125) stays the next one. How the model lists turns, and that a hold uses one up, is log entry 2. -/
def Obligations.IssueTurnRunsDecodedCommand : Prop :=
  ∀ (s : State) (ts : List Turn) (c : Word40) (cs : List Word40) (i : Instr),
    s.faulted = false → s.sched = .issue :: ts → s.cmds = c :: cs → decodeCommand c = .ok i →
    (holds i s = false → step s = exec i { s with sched := ts, cmds := cs }) ∧
    (holds i s = true → step s = .next { s with sched := ts })

/-- The co-processor's turn: a step is `exec` of the micro-step that `CP_STATE` selects (R107); in OFF it changes nothing, and
at `110` the model is stuck (R189). The model's choices are that turns are listed and a step uses one up (log entry 2), and that
OFF, where R189 gives no step, is a step without a change and the stuck state at `110` the fault reservedMicroStep (log
entry 9). -/
def Obligations.CoprocTurnRunsMicroStep : Prop :=
  ∀ (s : State) (ts : List Turn), s.faulted = false → s.sched = .coproc :: ts →
    (∀ i, decodeMicro s.cpState = .ok i → step s = exec i { s with sched := ts }) ∧
    (s.cpState = 0b111#3 → step s = .next { s with sched := ts }) ∧
    (s.cpState = 0b110#3 → step s = .fault .reservedMicroStep)

/-- The Host's completion turn: a step is the completion of R182. That the completion is a turn of its own is log entry 2. -/
def Obligations.CompleteTurnCompletes : Prop :=
  ∀ (s : State) (ts : List Turn), s.faulted = false → s.sched = .complete :: ts →
    step s = .next { completeReadWord s with sched := ts }

/-- R213: while `FAULTED = 1` no command, no micro-step, no completion and no step changes anything. That the model shows this as
a step without a change is log entry 1. -/
def Obligations.HaltedBlockTakesNoStep : Prop :=
  ∀ s : State, s.faulted = true → (∀ i, exec i s = .next s) ∧ completeReadWord s = s ∧ step s = .next s

/-- R213: a faulted state is final, however long the machine is run (log entry 1). -/
def Obligations.HaltedStateIsFinal : Prop :=
  ∀ (s : State) (k : Nat), s.faulted = true → Core.run core k s = .next s

/-- R211, R212, R214: the fault every command raises when its checks fail, the checks in the spec's order; the state is that
before the command plus the fault record. That a fault is a next state is log entry 1. -/
def Obligations.CommandFaultsInOrder : Prop :=
  ∀ s : State, s.faulted = false →
    (s.hostPhase = .waitWord →
      exec .initPins s = .next { s with faulted := true, fcode := 2#4, fcmd := some 0x0100000000#40 } ∧
      (∀ v, exec (.initEngine v) s = .next { s with faulted := true, fcode := 2#4, fcmd := some (0x02#8 ++ 0#31 ++ v) }) ∧
      (∀ a, exec (.setAddress a) s = .next { s with faulted := true, fcode := 2#4, fcmd := some (0x03#8 ++ a) }) ∧
      exec .readWord s = .next { s with faulted := true, fcode := 2#4, fcmd := some 0x0400000000#40 }) ∧
    (s.hostPhase = .ready → s.pinsReady = false →
      (∀ v, exec (.initEngine v) s = .next { s with faulted := true, fcode := 3#4, fcmd := some (0x02#8 ++ 0#31 ++ v) }) ∧
      (∀ a, exec (.setAddress a) s = .next { s with faulted := true, fcode := 3#4, fcmd := some (0x03#8 ++ a) }) ∧
      exec .readWord s = .next { s with faulted := true, fcode := 3#4, fcmd := some 0x0400000000#40 }) ∧
    (s.hostPhase = .ready → s.pinsReady = true →
      exec .initPins s = .next { s with faulted := true, fcode := 4#4, fcmd := some 0x0100000000#40 } ∧
      (s.engine = .none →
        exec .readWord s = .next { s with faulted := true, fcode := 5#4, fcmd := some 0x0400000000#40 }) ∧
      (s.engine ≠ .none →
        (∀ v, exec (.initEngine v) s =
          .next { s with faulted := true, fcode := 6#4, fcmd := some (0x02#8 ++ 0#31 ++ v) }) ∧
        (s.addrSet = false →
          exec .readWord s = .next { s with faulted := true, fcode := 7#4, fcmd := some 0x0400000000#40 })))

/-- R211, last row: no micro-step of a reachable state raises a fault or is refused; an early-issued command is the only way
to a fault in `WaitWord` (R215). That a hold, and a micro-step away from its own `CP_STATE`, is a next state without a change
is log entries 2 and 9. -/
def Obligations.MicroStepsRaiseNoFault : Prop :=
  ∀ (s : State) (i : Instr), Inv s → i.agent = .cp → s.faulted = false →
    ∃ t, exec i s = .next t ∧ t.faulted = false ∧ t.fcode = s.fcode ∧ t.fcmd = s.fcmd

/-! ## The pin primitives (40_bus_pin_set.md) -/

/-- R122: `Drive` of RE by an agent that does not own it raises BUS_CONFLICT and drives nothing; every other `Drive` sets `OUT`
on its group, leaves `DIR`, and appends one event.
The count of draws is the model's own field (log entry 3). -/
def Obligations.DriveOwnership : Prop :=
  ∀ (ag : Agent) (c : Word40) (gv : GroupVal) (s : State),
    (gv.group.hasRe = true → ag ≠ s.reOwner →
      drive ag c gv s = .stop { s with faulted := true, fcode := 2#4, fcmd := some c }) ∧
    ((gv.group.hasRe = false ∨ ag = s.reOwner) →
      ∃ t, drive ag c gv s = .go t ∧ t.out = s.out.put gv ∧ t.dir = s.dir ∧
        t.trace = s.trace ++ [⟨ag, .lvl gv⟩] ∧
        t = { s with
          out := t.out, trace := t.trace, latchH := t.latchH, latchL := t.latchL, rdcnt := t.rdcnt, draws := t.draws })

/-- R123, R126, R128, R73: bit `i` of a sample is the level of `ADi`. With RE inactive that is `OUT[i]` on an output line and a
draw on an input line; with RE asserted it is the cartridge's bit where every AD line is an input, and a draw on every AD line
where some AD line is an output (contention; log entry 20). That one evaluation of RE's level counts for all 16 lines, where RE
is undriven too and R126 asks line by line, is the model's choice (log entry 17); where RE is driven its level is its `OUT` and
there is no difference. A sample appends one event and changes no line, no latch and not `RDCNT`. The count of draws and the
environment's listed inputs are the model's own fields (log entries 3 and 4). -/
def Obligations.SampleReadsTheLines : Prop :=
  ∀ (ag : Agent) (s : State),
    (∀ i, i < 16 → s.ctrlLevel .re s.draws = true → s.sampleWord.getLsbD i =
      if s.dir.ad.getLsbD i then s.out.ad.getLsbD i else (Config.freeAd s.draws).getLsbD i) ∧
    (s.ctrlLevel .re s.draws = false → s.dir.ad = 0#16 → CartridgeGives s s.sampleWord) ∧
    (s.ctrlLevel .re s.draws = false → s.dir.ad ≠ 0#16 → s.sampleWord = Config.freeAd s.draws) ∧
    (s.dir.re = true → s.ctrlLevel .re s.draws = s.out.re) ∧
    (sampleStep ag s).trace = s.trace ++ [⟨ag, .smp s.sampleWord⟩] ∧
    sampleStep ag s = { s with
      trace := (sampleStep ag s).trace, cart := (sampleStep ag s).cart, draws := (sampleStep ag s).draws }

/-- R129, R130, R131: while the block drives the latch lines, RE and every AD line, the high latch captures the bus at the end of
an ALEH pulse, the low latch at the end of an ALEL pulse, either resets `RDCNT`, and the end of a read strobe advances it. The
captured value is `OUT` with RE inactive, and not fixed in contention (R128, log entry 20).
The count of draws is the model's own field (log entry 3). -/
def Obligations.PulseEndsReact : Prop :=
  ∀ b s : State, StrobesDriven b → StrobesDriven s → s.dir.ad = 0xFFFF#16 →
    ∃ h l n, react b s = { s with
        latchH := if !b.out.aleh && s.out.aleh then h else s.latchH
        latchL := if !b.out.alel && s.out.alel then l else s.latchL
        rdcnt := (if (!b.out.aleh && s.out.aleh) || (!b.out.alel && s.out.alel) then 0 else s.rdcnt) +
          (if !b.out.re && s.out.re then 1 else 0)
        draws := n } ∧
      (s.out.re = true → h = s.out.ad ∧ l = s.out.ad)

/-- R124: every primitive appends exactly one event, whether or not a level changes. -/
def Obligations.PrimitivesLogOneEvent : Prop :=
  ∀ (ag : Agent) (c : Word40) (gv : GroupVal) (g : Group) (d : Dir) (s : State),
    (cfg ag gv d s).trace = s.trace ++ [⟨ag, .cfg gv d⟩] ∧ (setDir ag g d s).trace = s.trace ++ [⟨ag, .dir g d⟩] ∧
    (∀ t, drive ag c gv s = .go t → t.trace = s.trace ++ [⟨ag, .lvl gv⟩]) ∧
    (sampleStep ag s).trace = s.trace ++ [⟨ag, .smp s.sampleWord⟩]

/-- R33, R34, R35: the lines are numbered AD0 to AD15, WE, RE, ALEL, ALEH, RST from bit 0, and no line is lost. -/
def Obligations.LineNumbering : Prop :=
  (∀ w : Word21, (Lines.ofWord w).word = w) ∧
  ∀ x : Lines, Lines.ofWord x.word = x ∧ (∀ i, i < 16 → x.word.getLsbD i = x.ad.getLsbD i) ∧
    x.word.getLsbD 16 = x.we ∧ x.word.getLsbD 17 = x.re ∧ x.word.getLsbD 18 = x.alel ∧ x.word.getLsbD 19 = x.aleh ∧
    x.word.getLsbD 20 = x.rst

/-! ## The Host's commands -/

/-- R134: INIT_PINS completes with its three events, the pins initialised and `PINS_READY = 1`; nothing else changes but the
latches and `RDCNT`, and of these none whose lines were driven inactive before.
The count of draws is the model's own field (log entry 3). -/
def Obligations.InitPinsCompletes : Prop :=
  ∀ s : State, Accepting s → s.pinsReady = false →
    ∃ t, exec .initPins s = .next t ∧ t.pinsReady = true ∧
      t.dir = ⟨0#16, true, true, true, true, Config.rstInitOutput⟩ ∧
      t.out = ⟨s.out.ad, true, true, true, true, Config.rstInitLevel⟩ ∧
      t.trace = s.trace ++
        [⟨.host, .cfg (.ctrl .ctrl4 true) .output⟩, ⟨.host, .dir .ad .input⟩,
          ⟨.host, .cfg (.ctrl (.only .rst) Config.rstInitLevel) (Dir.ofBit Config.rstInitOutput)⟩] ∧
      t = { s with
        pinsReady := true, dir := t.dir, out := t.out, trace := t.trace, latchH := t.latchH, latchL := t.latchL,
        rdcnt := t.rdcnt, draws := t.draws } ∧
      (s.dir.aleh = true → s.out.aleh = true → t.latchH = s.latchH) ∧
      (s.dir.alel = true → s.out.alel = true → t.latchL = s.latchL) ∧
      (StrobesDriven s → s.out.aleh = true → s.out.alel = true → s.out.re = true → t.rdcnt = s.rdcnt)

/-- R160: INIT_ENGINE selects the Polled engine with no pin event, or the Timed engine, whose co-processor takes RE, empties the
queues and `CP_W`, holds RE inactive and starts at U0.
The count of draws is the model's own field (log entry 3). -/
def Obligations.InitEngineCompletes : Prop :=
  ∀ s : State, Accepting s → s.pinsReady = true → s.engine = .none →
    exec (.initEngine 0#1) s = .next { s with engine := .polled } ∧
    (StrobesDriven s → s.out.re = true →
      ∃ n, exec (.initEngine 1#1) s = .next { s with
        engine := .timed, reOwner := .cp, txq := [], rxq := [], cpW := none, cpState := 0b000#3,
        trace := s.trace ++ [⟨.cp, .lvl (.ctrl (.only .re) true)⟩], draws := n })

/-- R140, R143: SET_ADDRESS with no engine or the Polled engine completes with the nine events of R140 in order, both halves
latched, `RDCNT = 0`, the AD lines inputs and the control lines inactive; nothing else changes.
The count of draws is the model's own field (log entry 3). -/
def Obligations.SetAddressCompletes : Prop :=
  ∀ (a : Word32) (s : State), Accepting s → s.pinsReady = true → StrobesDriven s → s.engine ≠ .timed →
    s.reOwner = .host →
    ∃ n, exec (.setAddress a) s = .next { s with
      dir := { s.dir with ad := 0#16 },
      out := { s.out with ad := a.extractLsb' 0 16, we := true, re := true, alel := true, aleh := true },
      latchH := a.extractLsb' 16 16, latchL := a.extractLsb' 0 16, rdcnt := 0, addrSet := true,
      trace := s.trace ++
        [⟨.host, .cfg (.ad 0x0000#16) .output⟩, ⟨.host, .lvl (.ctrl .ctrl4 true)⟩,
          ⟨.host, .lvl (.ad (a.extractLsb' 16 16))⟩, ⟨.host, .lvl (.ctrl (.only .aleh) false)⟩,
          ⟨.host, .lvl (.ctrl (.only .aleh) true)⟩, ⟨.host, .lvl (.ad (a.extractLsb' 0 16))⟩,
          ⟨.host, .lvl (.ctrl (.only .alel) false)⟩, ⟨.host, .lvl (.ctrl (.only .alel) true)⟩,
          ⟨.host, .dir .ad .input⟩],
      draws := n }

/-- R146: with the Timed engine SET_ADDRESS completes as otherwise, but its second event drives WE, ALEL and ALEH only; RE keeps
its level. With RE inactive, as the co-processor leaves it (R187, R192), the latches hold the halves; with RE asserted AD would
be in contention, and what they capture is not fixed (R128, log entry 20).
The count of draws is the model's own field (log entry 3). -/
def Obligations.SetAddressTimedLeavesRe : Prop :=
  ∀ (a : Word32) (s : State), Accepting s → s.pinsReady = true → StrobesDriven s → s.engine = .timed →
    ∃ h l n, exec (.setAddress a) s = .next { s with
        dir := { s.dir with ad := 0#16 },
        out := { s.out with ad := a.extractLsb' 0 16, we := true, alel := true, aleh := true },
        latchH := h, latchL := l, rdcnt := 0, addrSet := true,
        trace := s.trace ++
          [⟨.host, .cfg (.ad 0x0000#16) .output⟩, ⟨.host, .lvl (.ctrl .ctrl3 true)⟩,
            ⟨.host, .lvl (.ad (a.extractLsb' 16 16))⟩, ⟨.host, .lvl (.ctrl (.only .aleh) false)⟩,
            ⟨.host, .lvl (.ctrl (.only .aleh) true)⟩, ⟨.host, .lvl (.ad (a.extractLsb' 0 16))⟩,
            ⟨.host, .lvl (.ctrl (.only .alel) false)⟩, ⟨.host, .lvl (.ctrl (.only .alel) true)⟩,
            ⟨.host, .dir .ad .input⟩],
        draws := n } ∧
      (s.out.re = true → h = a.extractLsb' 16 16 ∧ l = a.extractLsb' 0 16)

/-- R142: after SET_ADDRESS `A` in a state a run reaches, the latches hold `A >> 16` and `A & 0xFFFF`, and `RDCNT = 0`. -/
def Obligations.LatchesHoldTheAddress : Prop :=
  ∀ (a : Word32) (s : State), Inv s → Accepting s → s.pinsReady = true →
    ∃ t, exec (.setAddress a) s = .next t ∧ t.latchH.setWidth 32 = a >>> 16 ∧
      t.latchL.setWidth 32 = a &&& 0x0000FFFF#32 ∧ t.latchH = a.extractLsb' 16 16 ∧ t.latchL = a.extractLsb' 0 16 ∧
      t.rdcnt = 0

/-- R144: SET_ADDRESS, however it ends, leaves `RD_DATA`, `ENGINE`, `RE_OWNER`, `CP_STATE`, `TXQ` and `RXQ`. -/
def Obligations.SetAddressReturnsNothing : Prop :=
  ∀ (a : Word32) (s t : State), exec (.setAddress a) s = .next t →
    t.rdData = s.rdData ∧ t.engine = s.engine ∧ t.reOwner = s.reOwner ∧ t.cpState = s.cpState ∧ t.txq = s.txq ∧
      t.rxq = s.rxq

/-- R162, R163: READ_WORD with the Polled engine completes with its three events, returns a word the cartridge drives at
`(LATCH_H, LATCH_L, RDCNT)`, and advances `RDCNT` by one; nothing else changes.
The count of draws and the environment's listed inputs are the model's own fields (log entries 3 and 4). -/
def Obligations.PolledReadCompletes : Prop :=
  ∀ s : State, Accepting s → s.pinsReady = true → s.engine = .polled → s.addrSet = true → s.reOwner = .host →
    StrobesDriven s → s.dir.ad = 0#16 →
    ∃ w n, CartridgeGives s w ∧ exec .readWord s = .next { s with
      rdData := some w, out := { s.out with re := true }, rdcnt := s.rdcnt + 1, cart := s.cart.tail,
      trace := s.trace ++
        [⟨.host, .lvl (.ctrl (.only .re) false)⟩, ⟨.host, .smp w⟩, ⟨.host, .lvl (.ctrl (.only .re) true)⟩],
      draws := n }

/-- R181: READ_WORD with the Timed engine pushes a trigger and waits; it holds, with no change, while TXQ is full.
That a hold is a step without a change is log entry 2. -/
def Obligations.TimedReadIssues : Prop :=
  ∀ s : State, Accepting s → s.pinsReady = true → s.engine = .timed → s.addrSet = true →
    (s.txq.length < Config.txDepth →
      exec .readWord s = .next { s with txq := s.txq ++ [.trig], hostPhase := .waitWord }) ∧
    (Config.txDepth ≤ s.txq.length → exec .readWord s = .next s)

/-- R182: the Host's completion of a Timed read pops the oldest word of RXQ into `RD_DATA` and is Ready again; it holds, with no
change, while RXQ is empty, and is enabled in `WaitWord` only. That a hold, or a completion that is not enabled, is a transition
without a change is log entry 2. -/
def Obligations.TimedReadCompletion : Prop :=
  ∀ s : State, s.faulted = false →
    (s.hostPhase = .waitWord → ∀ w rest, s.rxq = w :: rest →
      completeReadWord s = { s with rxq := rest, rdData := some w, hostPhase := .ready }) ∧
    (s.hostPhase = .waitWord → s.rxq = [] → completeReadWord s = s) ∧
    (s.hostPhase = .ready → completeReadWord s = s)

/-! ## The micro-steps (43_timed_coprocessor.md) -/

/-- R183: U0 consumes the oldest trigger and goes to U1; it holds while TXQ is empty. That a hold is a step without a change is
log entry 2. -/
def Obligations.WaitTrigConsumesTrigger : Prop :=
  ∀ s : State, s.faulted = false → s.cpState = 0b000#3 →
    (∀ q rest, s.txq = q :: rest → exec .uWaitTrig s = .next { s with txq := rest, cpState := 0b001#3 }) ∧
    (s.txq = [] → exec .uWaitTrig s = .next s)

/-- R184, R187: U1 asserts RE and U4 deasserts it, each with its one event; U4's rising edge advances `RDCNT` by one.
The count of draws is the model's own field (log entry 3). -/
def Obligations.ReadEnableStrobe : Prop :=
  ∀ s : State, s.faulted = false → s.reOwner = .cp → StrobesDriven s →
    (s.cpState = 0b001#3 → ∃ n, exec .uReAssert s = .next { s with
      out := { s.out with re := false }, cpState := 0b010#3,
      trace := s.trace ++ [⟨.cp, .lvl (.ctrl (.only .re) false)⟩], draws := n }) ∧
    (s.cpState = 0b100#3 → s.out.re = false → ∃ n, exec .uReDeassert s = .next { s with
      out := { s.out with re := true }, cpState := 0b101#3, rdcnt := s.rdcnt + 1,
      trace := s.trace ++ [⟨.cp, .lvl (.ctrl (.only .re) true)⟩], draws := n })

/-- R185: U2 changes nothing but the micro-step: no pin event and no line. -/
def Obligations.HoldChangesNothing : Prop :=
  ∀ s : State, s.faulted = false → s.cpState = 0b010#3 → exec .uHold s = .next { s with cpState := 0b011#3 }

/-- R186: U3 samples the bus in one step with one event, and the sample is a word the cartridge drives when RE is asserted and
the AD lines are inputs.
The count of draws and the environment's listed inputs are the model's own fields (log entries 3 and 4). -/
def Obligations.SampleStepHoldsTheWord : Prop :=
  ∀ s : State, s.faulted = false → s.cpState = 0b011#3 →
    (∃ w c n, exec .uSample s = .next { s with
      cpW := some w, cpState := 0b100#3, trace := s.trace ++ [⟨.cp, .smp w⟩], cart := c, draws := n }) ∧
    (StrobesDriven s → s.out.re = false → s.dir.ad = 0#16 →
      ∃ w n, CartridgeGives s w ∧ exec .uSample s = .next { s with
        cpW := some w, cpState := 0b100#3, trace := s.trace ++ [⟨.cp, .smp w⟩], cart := s.cart.tail, draws := n })

/-- R188: U5 pushes `CP_W`, which keeps its word, and goes to U0; it holds while RXQ is full (a hold is a step without a
change: log entry 2). With `CP_W = ⊥`, for which the spec gives no word, it pushes some word, of which nothing is said, and goes
on; that is the model's choice (log entry 10). The count of draws is the model's own field (log entry 3). -/
def Obligations.PushDeliversTheWord : Prop :=
  ∀ s : State, s.faulted = false → s.cpState = 0b101#3 →
    (s.rxq.length < Config.rxDepth → ∀ w, s.cpW = some w →
      exec .uPush s = .next { s with rxq := s.rxq ++ [w], cpState := 0b000#3 }) ∧
    (Config.rxDepth ≤ s.rxq.length → exec .uPush s = .next s) ∧
    (s.rxq.length < Config.rxDepth → s.cpW = none →
      ∃ w n, exec .uPush s = .next { s with rxq := s.rxq ++ [w], cpState := 0b000#3, draws := n })

/-- R190: the micro-program is one fixed loop: a micro-step that is performed and does not hold goes to the next, U5 to U0; the
co-processor's turn goes nowhere else, and no command moves it but INIT_ENGINE in the Timed variant, which sets U0 (R31).
That an instruction may also leave `CP_STATE` (a hold, a halted block, a micro-step away from its own `CP_STATE`) is how the
model shows an agent without a step (log entries 1, 2 and 9). -/
def Obligations.MicroProgramIsOneLoop : Prop :=
  ∀ (i : Instr) (s t : State), exec i s = .next t →
    (s.faulted = false → decodeMicro s.cpState = .ok i → s.reOwner = .cp → holds i s = false →
      t.cpState = if s.cpState = 0b101#3 then 0b000#3 else s.cpState + 1#3) ∧
    (i.agent = .cp → t.cpState = s.cpState ∨
      (s.cpState.toNat < 5 ∧ t.cpState.toNat = s.cpState.toNat + 1) ∨ (s.cpState = 0b101#3 ∧ t.cpState = 0b000#3)) ∧
    (i.agent = .host → t.cpState = s.cpState ∨ (i = .initEngine 1#1 ∧ t.cpState = 0b000#3))

/-- R180: no micro-step changes a direction, and no instruction gives RE back to the Host. -/
def Obligations.CoprocNeverChangesDirections : Prop :=
  ∀ (i : Instr) (s t : State), exec i s = .next t →
    (i.agent = .cp → t.dir = s.dir) ∧ (s.reOwner = .cp → t.reOwner = .cp)

/-! ## Whole reads -/

/-- R191: one Timed READ_WORD is its issue, U0 to U5 and its completion, with exactly three events, all of the co-processor; it
returns a word the cartridge drives at `(LATCH_H, LATCH_L, RDCNT)` and raises `RDCNT` by one. The listed turns are log entry 2.
The count of draws and the environment's listed inputs are the model's own fields (log entries 3 and 4). -/
def Obligations.TimedReadRuns : Prop :=
  ∀ (s : State) (cs : List Word40) (ts : List Turn), Inv s → Accepting s → s.engine = .timed → s.pinsReady = true →
    s.addrSet = true → s.cmds = 0x0400000000#40 :: cs →
    s.sched = .issue :: .coproc :: .coproc :: .coproc :: .coproc :: .coproc :: .coproc :: .complete :: ts →
    ∃ w n, CartridgeGives s w ∧ Core.run core 8 s = .next { s with
      rdData := some w, cpW := some w, rdcnt := s.rdcnt + 1, cart := s.cart.tail, cmds := cs, sched := ts,
      trace := s.trace ++
        [⟨.cp, .lvl (.ctrl (.only .re) false)⟩, ⟨.cp, .smp w⟩, ⟨.cp, .lvl (.ctrl (.only .re) true)⟩],
      draws := n }

/-- R164, R163: for the same latches, `RDCNT` and environment inputs, the Polled and the Timed read make the same three line
changes in the same order (RE to 0, the sample, RE to 1), differing in the agent only, sample a word of the same `CartData`,
return it, and leave the same latches, `RDCNT` and inputs. Where the environment has listed the word it drives, and otherwise
under a deterministic cartridge (R127's named assumption), the two words are one. The listed turns are log entry 2.
The count of draws and the environment's listed inputs are the model's own fields (log entries 3 and 4). -/
def Obligations.VariantsReturnTheSameWord : Prop :=
  ∀ (p t : State) (cs : List Word40) (ts : List Turn),
    Inv p → Accepting p → p.engine = .polled → p.addrSet = true →
    Inv t → Accepting t → t.engine = .timed → t.addrSet = true →
    p.latchH = t.latchH → p.latchL = t.latchL → p.rdcnt = t.rdcnt → p.cart = t.cart →
    t.cmds = 0x0400000000#40 :: cs →
    t.sched = .issue :: .coproc :: .coproc :: .coproc :: .coproc :: .coproc :: .coproc :: .complete :: ts →
    ∃ p' t' w v, exec .readWord p = .next p' ∧ Core.run core 8 t = .next t' ∧
      p'.rdData = some w ∧ t'.rdData = some v ∧ CartridgeGives p w ∧ CartridgeGives p v ∧
      p'.trace = p.trace ++
        [⟨.host, .lvl (.ctrl (.only .re) false)⟩, ⟨.host, .smp w⟩, ⟨.host, .lvl (.ctrl (.only .re) true)⟩] ∧
      t'.trace = t.trace ++
        [⟨.cp, .lvl (.ctrl (.only .re) false)⟩, ⟨.cp, .smp v⟩, ⟨.cp, .lvl (.ctrl (.only .re) true)⟩] ∧
      p'.rdcnt = p.rdcnt + 1 ∧ t'.rdcnt = p'.rdcnt ∧ t'.cart = p'.cart ∧ t'.latchH = p'.latchH ∧ t'.latchL = p'.latchL ∧
      (p.cart ≠ [] ∨ DeterministicCartridge → w = v)

/-- R194: in `WaitWord`, whatever the interleaving, once the co-processor has had six turns and the Host then attempts its
completion, the read has completed: no read waits for ever under a fair schedule. The Host issues nothing meanwhile (R193).
The fairness assumption is the count of listed turns (log entries 2 and 16). -/
def Obligations.FairScheduleCompletesRead : Prop :=
  ∀ (s : State) (ts rest : List Turn), Inv s → s.faulted = false → s.hostPhase = .waitWord →
    s.sched = ts ++ .complete :: rest → .issue ∉ ts → 6 ≤ ts.count .coproc →
    ∃ t, Core.run core (ts.length + 1) s = .next t ∧ t.hostPhase = .ready ∧ t.rdData.isSome = true ∧
      t.faulted = false ∧ t.sched = rest

/-- R194: where the co-processor is never scheduled after the issue the Host waits for ever: a hang, not a fault
(log entry 2). -/
def Obligations.UnscheduledCoprocHangsRead : Prop :=
  ∀ (s : State) (ts : List Turn), s.faulted = false → s.hostPhase = .waitWord → s.rxq = [] → s.sched = ts →
    .issue ∉ ts → .coproc ∉ ts → Core.run core ts.length s = .next { s with sched := [] }

/-! ## Invariants and whole-machine rules -/

/-- R192, R246, R36, R42: every step keeps the invariant, from every state that has it. -/
def Obligations.StepKeepsInvariant : Prop := ∀ s t : State, Inv s → step s = .next t → Inv t

/-- R240: the state after reset has the invariant. -/
def Obligations.ResetHasInvariant : Prop := Inv State.reset

/-- R51, R240: the state after power-on reset, where the spec gives a value. -/
def Obligations.ResetValues : Prop :=
  State.reset.rdData = none ∧ State.reset.cpState = 7#3 ∧ State.reset.reOwner = .host ∧ State.reset.pinsReady = false ∧
  State.reset.engine = .none ∧ State.reset.addrSet = false ∧ State.reset.hostPhase = .ready ∧
  State.reset.faulted = false ∧ State.reset.fcode = 0#4 ∧ State.reset.fcmd = none ∧ State.reset.cpW = none ∧
  State.reset.txq = [] ∧ State.reset.rxq = [] ∧ State.reset.trace = []

/-- First clause, the model's choice and no rule of the spec: `exec` of every instruction answers a next state in every state. A
fault is taken as a next state and a halted block is shown as a step without a change (log entry 1), an agent that holds uses up
its turn (log entry 2), a micro-step away from its own `CP_STATE` or in OFF changes nothing (log entry 9), and U5 with
`CP_W = ⊥` pushes a free word (log entry 10); in the spec an agent takes no step in the first three cases (R125, R189, R213).
Second clause, R189: from a state with the invariant no step is stuck or refused, `CP_STATE` is never `110`, and it is OFF
exactly without the Timed engine; that a step is always answered rests on the same log entries. -/
def Obligations.EveryStepIsTaken : Prop :=
  (∀ (i : Instr) (s : State), ∃ t, exec i s = .next t) ∧
  ∀ s : State, Inv s → (∃ t, step s = .next t) ∧ s.cpState ≠ 0b110#3 ∧ (s.cpState = 0b111#3 ↔ s.engine ≠ .timed)

/-- R192: depths of 1 suffice and no push ever holds. -/
def Obligations.NoPushEverHolds : Prop :=
  ∀ s : State, Inv s → s.txq.length ≤ 1 ∧ s.rxq.length ≤ 1 ∧ holds .readWord s = false ∧ holds .uPush s = false

/-- R145, R192: while the Host can issue a command the co-processor has no step that changes anything (log entry 2). -/
def Obligations.CoprocIdlesWhileHostReady : Prop :=
  ∀ (s : State) (ts : List Turn), Inv s → Accepting s → s.sched = .coproc :: ts → step s = .next { s with sched := ts }

/-- R47: the trace is append-only: no step removes or changes an event. -/
def Obligations.TraceIsAppendOnly : Prop :=
  ∀ s t : State, step s = .next t → ∃ es, t.trace = s.trace ++ es

/-- R246, R47: every step's events, replayed on the lines before it, give the lines after it; and from a state with the invariant
none of them leaves the lines in contention (RE not driven to 1 while an AD line is an output). -/
def Obligations.NoContention : Prop :=
  ∀ s t : State, Inv s → step s = .next t →
    ∃ es, t.trace = s.trace ++ es ∧ replay (s.dir, s.out) es = (t.dir, t.out) ∧ contentionFree (s.dir, s.out) es = true

/-- R71: no event of any step asserts WE. -/
def Obligations.WriteEnableNeverAsserted : Prop :=
  ∀ s t : State, step s = .next t → (∀ e ∈ s.trace, e.sets .we false = false) → ∀ e ∈ t.trace, e.sets .we false = false

/-- R248, R180: once the co-processor owns RE, no Host event of a step drives RE; before that, no co-processor event does but that
of INIT_ENGINE. -/
def Obligations.ReadEnableIsExclusive : Prop :=
  ∀ s t : State, Inv s → step s = .next t →
    ∃ es, t.trace = s.trace ++ es ∧ (s.reOwner = .cp → ∀ e ∈ es, e.drivesRe = true → e.agent = .cp) ∧
      (t.reOwner = .host → ∀ e ∈ es, e.drivesRe = true → e.agent = .host)

/-- R36, R38, R39, R40, R42: no step undoes an initialisation: `PINS_READY`, `ADDR_SET` and `FAULTED` stay 1, an engine once chosen
stays, the co-processor never gives RE back. -/
def Obligations.InitialisationIsPermanent : Prop :=
  ∀ s t : State, step s = .next t →
    (s.pinsReady = true → t.pinsReady = true) ∧ (s.addrSet = true → t.addrSet = true) ∧
    (s.faulted = true → t.faulted = true ∧ t.fcode = s.fcode ∧ t.fcmd = s.fcmd) ∧
    (s.engine ≠ .none → t.engine = s.engine) ∧ (s.reOwner = .cp → t.reOwner = .cp)

/-- R30: `RD_DATA` is written only where a READ_WORD completes: by a Polled READ_WORD, or by the completion of a Timed one. -/
def Obligations.OnlyReadsWriteRdData : Prop :=
  (∀ (i : Instr) (s t : State), exec i s = .next t → t.rdData ≠ s.rdData → i = .readWord ∧ s.engine ≠ .timed) ∧
  (∀ s t : State, step s = .next t → t.rdData ≠ s.rdData →
    (∃ ts, s.sched = .complete :: ts ∧ s.hostPhase = .waitWord ∧ t.hostPhase = .ready ∧
      ∃ w rest, s.rxq = w :: rest ∧ t.rdData = some w) ∨
    (∃ ts cs, s.sched = .issue :: ts ∧ s.cmds = 0x0400000000#40 :: cs))

/-- R86: `RXQ` and `TXQ` are first-in first-out: an instruction appends one entry at the end, takes the oldest, leaves the queue,
or is INIT_ENGINE in the Timed variant, which empties it; a Timed read's completion takes the oldest word or leaves the queue.
What U5 appends is `CP_W` where that holds a word (log entry 10). -/
def Obligations.QueuesAreFifo : Prop :=
  (∀ (i : Instr) (s t : State), exec i s = .next t →
    (t.txq = s.txq ∨ (i = .readWord ∧ t.txq = s.txq ++ [.trig]) ∨ (i = .uWaitTrig ∧ ∃ q, s.txq = q :: t.txq) ∨
      (i = .initEngine 1#1 ∧ t.txq = [])) ∧
    (t.rxq = s.rxq ∨ (i = .uPush ∧ ∃ w, (∀ v, s.cpW = some v → w = v) ∧ t.rxq = s.rxq ++ [w]) ∨
      (i = .initEngine 1#1 ∧ t.rxq = []))) ∧
  ∀ s : State, (completeReadWord s).txq = s.txq ∧
    (completeReadWord s = s ∨ ∃ w, s.rxq = w :: (completeReadWord s).rxq ∧ (completeReadWord s).rdData = some w)

/-! ## Views and the environment -/

/-- R49: the layout of STATUS. -/
def Obligations.StatusLayout : Prop :=
  ∀ s : State,
    s.status.extractLsb' 0 1 = BitVec.ofBool s.pinsReady ∧
    s.status.extractLsb' 1 2 = (match s.engine with | .none => 0b00#2 | .polled => 0b01#2 | .timed => 0b10#2) ∧
    s.status.extractLsb' 3 1 = BitVec.ofBool s.addrSet ∧
    s.status.extractLsb' 4 1 = (match s.hostPhase with | .ready => 0#1 | .waitWord => 1#1) ∧
    s.status.extractLsb' 5 1 = BitVec.ofBool s.faulted ∧
    s.status.extractLsb' 6 4 = (if s.faulted then s.fcode else 0#4) ∧
    s.status.extractLsb' 10 3 = s.cpState ∧
    s.status.extractLsb' 13 1 = (match s.reOwner with | .host => 0#1 | .cp => 1#1) ∧
    s.status.extractLsb' 14 18 = 0#18

/-- R74, R75: serialization puts each word's high byte first, keeps the words' order, has two bytes a word and loses nothing. -/
def Obligations.SerializationKeepsOrder : Prop :=
  (∀ w : Word16, ser w = [w.extractLsb' 8 8, w.extractLsb' 0 8]) ∧
  ∀ ws : List Word16,
    (∀ vs, serWords (ws ++ vs) = serWords ws ++ serWords vs) ∧
    (serWords ws).length = 2 * ws.length ∧
    (∀ i (h : i < ws.length), (serWords ws)[2 * i]? = some (ws[i].extractLsb' 8 8) ∧
      (serWords ws)[2 * i + 1]? = some (ws[i].extractLsb' 0 8)) ∧
    (∀ vs, serWords ws = serWords vs → ws = vs)

/-- R133, R76: a burst of the reference cartridge from an even address gives, at position `k`, the two ROM bytes at `a + 2k`, the
lower address's byte high; bit 0 of the address is ignored; the image repeats every `SIZE` bytes past its end. -/
def Obligations.ReferenceCartridgeBurst : Prop :=
  ∀ (r : RefCartridge) (a : Word32) (k : Nat), r.wellFormed = true → a.toNat % 2 = 0 →
    (∃ off, off = (a + BitVec.ofNat 32 (2 * k) - r.base).toNat % r.size ∧ off + 1 < r.bytes.length ∧
      r.cartData (a.extractLsb' 16 16) (a.extractLsb' 0 16) k = r.bytes.getD off 0#8 ++ r.bytes.getD (off + 1) 0#8) ∧
    r.cartData ((a + 1#32).extractLsb' 16 16) ((a + 1#32).extractLsb' 0 16) k =
      r.cartData (a.extractLsb' 16 16) (a.extractLsb' 0 16) k ∧
    ((a - r.base).toNat + 2 * k + r.size < 2 ^ 32 →
      r.cartData ((a + BitVec.ofNat 32 r.size).extractLsb' 16 16) ((a + BitVec.ofNat 32 r.size).extractLsb' 0 16) k =
        r.cartData (a.extractLsb' 16 16) (a.extractLsb' 0 16) k)

/-- R109: `READ_AT a, n` stands for SET_ADDRESS `a` and `n` READ_WORDs, for `n` at least 1. R108 gives the literal's range; that a
line with a literal outside it, or with `n = 0`, assembles to nothing is the model's choice (log entry 19). -/
def Obligations.ReadAtExpansion : Prop :=
  ∀ imm n : Nat,
    (imm < 2 ^ 32 → 1 ≤ n →
      ∃ a : Word32, a.toNat = imm ∧ assemble (.readAt imm n) = some (.setAddress a :: List.replicate n .readWord)) ∧
    ((2 ^ 32 ≤ imm ∨ n = 0) → assemble (.readAt imm n) = none)

/-- R80, R81, R82: the checksum bytes of a header are the bytes `0x10` to `0x13` of its serialization and its name the bytes
`0x20` to `0x33`; chunk `j` of a dump starts at `ROM_BASE + 512*j`, at an even address since `ROM_BASE` is even; the mirror
address of a candidate of `mb` MB is `ROM_BASE + mb * 0x10_0000`. -/
def Obligations.HeaderAndChunkAddresses : Prop :=
  (∀ ws : List Word16,
    headerChecksum ws = ((serWords ws).drop 0x10).take 4 ∧ headerName ws = ((serWords ws).drop 0x20).take 0x14) ∧
  (∀ ws : List Word16, 26 ≤ ws.length →
    headerChecksum ws = ser (ws.getD 8 0#16) ++ ser (ws.getD 9 0#16) ∧ (headerName ws).length = 20) ∧
  Config.romBase.toNat % 2 = 0 ∧
  (∀ j : Nat, chunkAddress j = Config.romBase + BitVec.ofNat 32 (512 * j) ∧ (chunkAddress j).toNat % 2 = 0 ∧
    chunkAddress (j + 1) = chunkAddress j + 512#32) ∧
  (∀ mb : Nat, mirrorAddress mb = Config.romBase + BitVec.ofNat 32 (mb * 0x100000) ∧
    mirrorAddress mb = chunkAddress (2048 * mb))
end

