-- ==== Sys2Proof/Laws/State.lean ====
section
/-! SUPPORT. What each named update of the state leaves in each field: one lemma per field per update, each true by `rfl`. -/

namespace Sys2Proof.Machine

@[simp] theorem raiseFault_rdData (k : FaultCode) (c : Word40) (s : State) : (raiseFault k c s).rdData = s.rdData := rfl
@[simp] theorem raiseFault_cpState (k : FaultCode) (c : Word40) (s : State) : (raiseFault k c s).cpState = s.cpState := rfl
@[simp] theorem raiseFault_dir (k : FaultCode) (c : Word40) (s : State) : (raiseFault k c s).dir = s.dir := rfl
@[simp] theorem raiseFault_out (k : FaultCode) (c : Word40) (s : State) : (raiseFault k c s).out = s.out := rfl
@[simp] theorem raiseFault_reOwner (k : FaultCode) (c : Word40) (s : State) : (raiseFault k c s).reOwner = s.reOwner := rfl
@[simp] theorem raiseFault_pinsReady (k : FaultCode) (c : Word40) (s : State) : (raiseFault k c s).pinsReady = s.pinsReady := rfl
@[simp] theorem raiseFault_engine (k : FaultCode) (c : Word40) (s : State) : (raiseFault k c s).engine = s.engine := rfl
@[simp] theorem raiseFault_addrSet (k : FaultCode) (c : Word40) (s : State) : (raiseFault k c s).addrSet = s.addrSet := rfl
@[simp] theorem raiseFault_hostPhase (k : FaultCode) (c : Word40) (s : State) : (raiseFault k c s).hostPhase = s.hostPhase := rfl
@[simp] theorem raiseFault_faulted (k : FaultCode) (c : Word40) (s : State) : (raiseFault k c s).faulted = true := rfl
@[simp] theorem raiseFault_fcode (k : FaultCode) (c : Word40) (s : State) : (raiseFault k c s).fcode = k.code := rfl
@[simp] theorem raiseFault_fcmd (k : FaultCode) (c : Word40) (s : State) : (raiseFault k c s).fcmd = some c := rfl
@[simp] theorem raiseFault_cpW (k : FaultCode) (c : Word40) (s : State) : (raiseFault k c s).cpW = s.cpW := rfl
@[simp] theorem raiseFault_txq (k : FaultCode) (c : Word40) (s : State) : (raiseFault k c s).txq = s.txq := rfl
@[simp] theorem raiseFault_rxq (k : FaultCode) (c : Word40) (s : State) : (raiseFault k c s).rxq = s.rxq := rfl
@[simp] theorem raiseFault_latchH (k : FaultCode) (c : Word40) (s : State) : (raiseFault k c s).latchH = s.latchH := rfl
@[simp] theorem raiseFault_latchL (k : FaultCode) (c : Word40) (s : State) : (raiseFault k c s).latchL = s.latchL := rfl
@[simp] theorem raiseFault_rdcnt (k : FaultCode) (c : Word40) (s : State) : (raiseFault k c s).rdcnt = s.rdcnt := rfl
@[simp] theorem raiseFault_trace (k : FaultCode) (c : Word40) (s : State) : (raiseFault k c s).trace = s.trace := rfl
@[simp] theorem raiseFault_cmds (k : FaultCode) (c : Word40) (s : State) : (raiseFault k c s).cmds = s.cmds := rfl
@[simp] theorem raiseFault_sched (k : FaultCode) (c : Word40) (s : State) : (raiseFault k c s).sched = s.sched := rfl
@[simp] theorem raiseFault_cart (k : FaultCode) (c : Word40) (s : State) : (raiseFault k c s).cart = s.cart := rfl
@[simp] theorem raiseFault_draws (k : FaultCode) (c : Word40) (s : State) : (raiseFault k c s).draws = s.draws := rfl

@[simp] theorem log_rdData (ag : Agent) (a : PinAct) (s : State) : (s.log ag a).rdData = s.rdData := rfl
@[simp] theorem log_cpState (ag : Agent) (a : PinAct) (s : State) : (s.log ag a).cpState = s.cpState := rfl
@[simp] theorem log_dir (ag : Agent) (a : PinAct) (s : State) : (s.log ag a).dir = s.dir := rfl
@[simp] theorem log_out (ag : Agent) (a : PinAct) (s : State) : (s.log ag a).out = s.out := rfl
@[simp] theorem log_reOwner (ag : Agent) (a : PinAct) (s : State) : (s.log ag a).reOwner = s.reOwner := rfl
@[simp] theorem log_pinsReady (ag : Agent) (a : PinAct) (s : State) : (s.log ag a).pinsReady = s.pinsReady := rfl
@[simp] theorem log_engine (ag : Agent) (a : PinAct) (s : State) : (s.log ag a).engine = s.engine := rfl
@[simp] theorem log_addrSet (ag : Agent) (a : PinAct) (s : State) : (s.log ag a).addrSet = s.addrSet := rfl
@[simp] theorem log_hostPhase (ag : Agent) (a : PinAct) (s : State) : (s.log ag a).hostPhase = s.hostPhase := rfl
@[simp] theorem log_faulted (ag : Agent) (a : PinAct) (s : State) : (s.log ag a).faulted = s.faulted := rfl
@[simp] theorem log_fcode (ag : Agent) (a : PinAct) (s : State) : (s.log ag a).fcode = s.fcode := rfl
@[simp] theorem log_fcmd (ag : Agent) (a : PinAct) (s : State) : (s.log ag a).fcmd = s.fcmd := rfl
@[simp] theorem log_cpW (ag : Agent) (a : PinAct) (s : State) : (s.log ag a).cpW = s.cpW := rfl
@[simp] theorem log_txq (ag : Agent) (a : PinAct) (s : State) : (s.log ag a).txq = s.txq := rfl
@[simp] theorem log_rxq (ag : Agent) (a : PinAct) (s : State) : (s.log ag a).rxq = s.rxq := rfl
@[simp] theorem log_latchH (ag : Agent) (a : PinAct) (s : State) : (s.log ag a).latchH = s.latchH := rfl
@[simp] theorem log_latchL (ag : Agent) (a : PinAct) (s : State) : (s.log ag a).latchL = s.latchL := rfl
@[simp] theorem log_rdcnt (ag : Agent) (a : PinAct) (s : State) : (s.log ag a).rdcnt = s.rdcnt := rfl
@[simp] theorem log_trace (ag : Agent) (a : PinAct) (s : State) : (s.log ag a).trace = s.trace ++ [⟨ag, a⟩] := rfl
@[simp] theorem log_cmds (ag : Agent) (a : PinAct) (s : State) : (s.log ag a).cmds = s.cmds := rfl
@[simp] theorem log_sched (ag : Agent) (a : PinAct) (s : State) : (s.log ag a).sched = s.sched := rfl
@[simp] theorem log_cart (ag : Agent) (a : PinAct) (s : State) : (s.log ag a).cart = s.cart := rfl
@[simp] theorem log_draws (ag : Agent) (a : PinAct) (s : State) : (s.log ag a).draws = s.draws := rfl

@[simp] theorem react_rdData (b s : State) : (react b s).rdData = s.rdData := rfl
@[simp] theorem react_cpState (b s : State) : (react b s).cpState = s.cpState := rfl
@[simp] theorem react_dir (b s : State) : (react b s).dir = s.dir := rfl
@[simp] theorem react_out (b s : State) : (react b s).out = s.out := rfl
@[simp] theorem react_reOwner (b s : State) : (react b s).reOwner = s.reOwner := rfl
@[simp] theorem react_pinsReady (b s : State) : (react b s).pinsReady = s.pinsReady := rfl
@[simp] theorem react_engine (b s : State) : (react b s).engine = s.engine := rfl
@[simp] theorem react_addrSet (b s : State) : (react b s).addrSet = s.addrSet := rfl
@[simp] theorem react_hostPhase (b s : State) : (react b s).hostPhase = s.hostPhase := rfl
@[simp] theorem react_faulted (b s : State) : (react b s).faulted = s.faulted := rfl
@[simp] theorem react_fcode (b s : State) : (react b s).fcode = s.fcode := rfl
@[simp] theorem react_fcmd (b s : State) : (react b s).fcmd = s.fcmd := rfl
@[simp] theorem react_cpW (b s : State) : (react b s).cpW = s.cpW := rfl
@[simp] theorem react_txq (b s : State) : (react b s).txq = s.txq := rfl
@[simp] theorem react_rxq (b s : State) : (react b s).rxq = s.rxq := rfl
@[simp] theorem react_trace (b s : State) : (react b s).trace = s.trace := rfl
@[simp] theorem react_cmds (b s : State) : (react b s).cmds = s.cmds := rfl
@[simp] theorem react_sched (b s : State) : (react b s).sched = s.sched := rfl
@[simp] theorem react_cart (b s : State) : (react b s).cart = s.cart := rfl
@[simp] theorem react_draws (b s : State) : (react b s).draws = s.draws + 4 := rfl

@[simp] theorem cfg_rdData (ag : Agent) (gv : GroupVal) (d : Dir) (s : State) : (cfg ag gv d s).rdData = s.rdData := rfl
@[simp] theorem cfg_cpState (ag : Agent) (gv : GroupVal) (d : Dir) (s : State) : (cfg ag gv d s).cpState = s.cpState := rfl
@[simp] theorem cfg_dir (ag : Agent) (gv : GroupVal) (d : Dir) (s : State) : (cfg ag gv d s).dir = s.dir.setDir gv.group d := rfl
@[simp] theorem cfg_out (ag : Agent) (gv : GroupVal) (d : Dir) (s : State) : (cfg ag gv d s).out = s.out.put gv := rfl
@[simp] theorem cfg_reOwner (ag : Agent) (gv : GroupVal) (d : Dir) (s : State) : (cfg ag gv d s).reOwner = s.reOwner := rfl
@[simp] theorem cfg_pinsReady (ag : Agent) (gv : GroupVal) (d : Dir) (s : State) : (cfg ag gv d s).pinsReady = s.pinsReady := rfl
@[simp] theorem cfg_engine (ag : Agent) (gv : GroupVal) (d : Dir) (s : State) : (cfg ag gv d s).engine = s.engine := rfl
@[simp] theorem cfg_addrSet (ag : Agent) (gv : GroupVal) (d : Dir) (s : State) : (cfg ag gv d s).addrSet = s.addrSet := rfl
@[simp] theorem cfg_hostPhase (ag : Agent) (gv : GroupVal) (d : Dir) (s : State) : (cfg ag gv d s).hostPhase = s.hostPhase := rfl
@[simp] theorem cfg_faulted (ag : Agent) (gv : GroupVal) (d : Dir) (s : State) : (cfg ag gv d s).faulted = s.faulted := rfl
@[simp] theorem cfg_fcode (ag : Agent) (gv : GroupVal) (d : Dir) (s : State) : (cfg ag gv d s).fcode = s.fcode := rfl
@[simp] theorem cfg_fcmd (ag : Agent) (gv : GroupVal) (d : Dir) (s : State) : (cfg ag gv d s).fcmd = s.fcmd := rfl
@[simp] theorem cfg_cpW (ag : Agent) (gv : GroupVal) (d : Dir) (s : State) : (cfg ag gv d s).cpW = s.cpW := rfl
@[simp] theorem cfg_txq (ag : Agent) (gv : GroupVal) (d : Dir) (s : State) : (cfg ag gv d s).txq = s.txq := rfl
@[simp] theorem cfg_rxq (ag : Agent) (gv : GroupVal) (d : Dir) (s : State) : (cfg ag gv d s).rxq = s.rxq := rfl
@[simp] theorem cfg_trace (ag : Agent) (gv : GroupVal) (d : Dir) (s : State) : (cfg ag gv d s).trace = s.trace ++ [⟨ag, .cfg gv d⟩] := rfl
@[simp] theorem cfg_cmds (ag : Agent) (gv : GroupVal) (d : Dir) (s : State) : (cfg ag gv d s).cmds = s.cmds := rfl
@[simp] theorem cfg_sched (ag : Agent) (gv : GroupVal) (d : Dir) (s : State) : (cfg ag gv d s).sched = s.sched := rfl
@[simp] theorem cfg_cart (ag : Agent) (gv : GroupVal) (d : Dir) (s : State) : (cfg ag gv d s).cart = s.cart := rfl
@[simp] theorem cfg_draws (ag : Agent) (gv : GroupVal) (d : Dir) (s : State) : (cfg ag gv d s).draws = s.draws + 4 := rfl

@[simp] theorem setDir_rdData (ag : Agent) (g : Group) (d : Dir) (s : State) : (setDir ag g d s).rdData = s.rdData := rfl
@[simp] theorem setDir_cpState (ag : Agent) (g : Group) (d : Dir) (s : State) : (setDir ag g d s).cpState = s.cpState := rfl
@[simp] theorem setDir_dir (ag : Agent) (g : Group) (d : Dir) (s : State) : (setDir ag g d s).dir = s.dir.setDir g d := rfl
@[simp] theorem setDir_out (ag : Agent) (g : Group) (d : Dir) (s : State) : (setDir ag g d s).out = s.out := rfl
@[simp] theorem setDir_reOwner (ag : Agent) (g : Group) (d : Dir) (s : State) : (setDir ag g d s).reOwner = s.reOwner := rfl
@[simp] theorem setDir_pinsReady (ag : Agent) (g : Group) (d : Dir) (s : State) : (setDir ag g d s).pinsReady = s.pinsReady := rfl
@[simp] theorem setDir_engine (ag : Agent) (g : Group) (d : Dir) (s : State) : (setDir ag g d s).engine = s.engine := rfl
@[simp] theorem setDir_addrSet (ag : Agent) (g : Group) (d : Dir) (s : State) : (setDir ag g d s).addrSet = s.addrSet := rfl
@[simp] theorem setDir_hostPhase (ag : Agent) (g : Group) (d : Dir) (s : State) : (setDir ag g d s).hostPhase = s.hostPhase := rfl
@[simp] theorem setDir_faulted (ag : Agent) (g : Group) (d : Dir) (s : State) : (setDir ag g d s).faulted = s.faulted := rfl
@[simp] theorem setDir_fcode (ag : Agent) (g : Group) (d : Dir) (s : State) : (setDir ag g d s).fcode = s.fcode := rfl
@[simp] theorem setDir_fcmd (ag : Agent) (g : Group) (d : Dir) (s : State) : (setDir ag g d s).fcmd = s.fcmd := rfl
@[simp] theorem setDir_cpW (ag : Agent) (g : Group) (d : Dir) (s : State) : (setDir ag g d s).cpW = s.cpW := rfl
@[simp] theorem setDir_txq (ag : Agent) (g : Group) (d : Dir) (s : State) : (setDir ag g d s).txq = s.txq := rfl
@[simp] theorem setDir_rxq (ag : Agent) (g : Group) (d : Dir) (s : State) : (setDir ag g d s).rxq = s.rxq := rfl
@[simp] theorem setDir_trace (ag : Agent) (g : Group) (d : Dir) (s : State) : (setDir ag g d s).trace = s.trace ++ [⟨ag, .dir g d⟩] := rfl
@[simp] theorem setDir_cmds (ag : Agent) (g : Group) (d : Dir) (s : State) : (setDir ag g d s).cmds = s.cmds := rfl
@[simp] theorem setDir_sched (ag : Agent) (g : Group) (d : Dir) (s : State) : (setDir ag g d s).sched = s.sched := rfl
@[simp] theorem setDir_cart (ag : Agent) (g : Group) (d : Dir) (s : State) : (setDir ag g d s).cart = s.cart := rfl
@[simp] theorem setDir_draws (ag : Agent) (g : Group) (d : Dir) (s : State) : (setDir ag g d s).draws = s.draws + 4 := rfl

@[simp] theorem driveLines_rdData (ag : Agent) (gv : GroupVal) (s : State) : (driveLines ag gv s).rdData = s.rdData := rfl
@[simp] theorem driveLines_cpState (ag : Agent) (gv : GroupVal) (s : State) : (driveLines ag gv s).cpState = s.cpState := rfl
@[simp] theorem driveLines_dir (ag : Agent) (gv : GroupVal) (s : State) : (driveLines ag gv s).dir = s.dir := rfl
@[simp] theorem driveLines_out (ag : Agent) (gv : GroupVal) (s : State) : (driveLines ag gv s).out = s.out.put gv := rfl
@[simp] theorem driveLines_reOwner (ag : Agent) (gv : GroupVal) (s : State) : (driveLines ag gv s).reOwner = s.reOwner := rfl
@[simp] theorem driveLines_pinsReady (ag : Agent) (gv : GroupVal) (s : State) : (driveLines ag gv s).pinsReady = s.pinsReady := rfl
@[simp] theorem driveLines_engine (ag : Agent) (gv : GroupVal) (s : State) : (driveLines ag gv s).engine = s.engine := rfl
@[simp] theorem driveLines_addrSet (ag : Agent) (gv : GroupVal) (s : State) : (driveLines ag gv s).addrSet = s.addrSet := rfl
@[simp] theorem driveLines_hostPhase (ag : Agent) (gv : GroupVal) (s : State) : (driveLines ag gv s).hostPhase = s.hostPhase := rfl
@[simp] theorem driveLines_faulted (ag : Agent) (gv : GroupVal) (s : State) : (driveLines ag gv s).faulted = s.faulted := rfl
@[simp] theorem driveLines_fcode (ag : Agent) (gv : GroupVal) (s : State) : (driveLines ag gv s).fcode = s.fcode := rfl
@[simp] theorem driveLines_fcmd (ag : Agent) (gv : GroupVal) (s : State) : (driveLines ag gv s).fcmd = s.fcmd := rfl
@[simp] theorem driveLines_cpW (ag : Agent) (gv : GroupVal) (s : State) : (driveLines ag gv s).cpW = s.cpW := rfl
@[simp] theorem driveLines_txq (ag : Agent) (gv : GroupVal) (s : State) : (driveLines ag gv s).txq = s.txq := rfl
@[simp] theorem driveLines_rxq (ag : Agent) (gv : GroupVal) (s : State) : (driveLines ag gv s).rxq = s.rxq := rfl
@[simp] theorem driveLines_trace (ag : Agent) (gv : GroupVal) (s : State) : (driveLines ag gv s).trace = s.trace ++ [⟨ag, .lvl gv⟩] := rfl
@[simp] theorem driveLines_cmds (ag : Agent) (gv : GroupVal) (s : State) : (driveLines ag gv s).cmds = s.cmds := rfl
@[simp] theorem driveLines_sched (ag : Agent) (gv : GroupVal) (s : State) : (driveLines ag gv s).sched = s.sched := rfl
@[simp] theorem driveLines_cart (ag : Agent) (gv : GroupVal) (s : State) : (driveLines ag gv s).cart = s.cart := rfl
@[simp] theorem driveLines_draws (ag : Agent) (gv : GroupVal) (s : State) : (driveLines ag gv s).draws = s.draws + 4 := rfl

@[simp] theorem sampleStep_rdData (ag : Agent) (s : State) : (sampleStep ag s).rdData = s.rdData := rfl
@[simp] theorem sampleStep_cpState (ag : Agent) (s : State) : (sampleStep ag s).cpState = s.cpState := rfl
@[simp] theorem sampleStep_dir (ag : Agent) (s : State) : (sampleStep ag s).dir = s.dir := rfl
@[simp] theorem sampleStep_out (ag : Agent) (s : State) : (sampleStep ag s).out = s.out := rfl
@[simp] theorem sampleStep_reOwner (ag : Agent) (s : State) : (sampleStep ag s).reOwner = s.reOwner := rfl
@[simp] theorem sampleStep_pinsReady (ag : Agent) (s : State) : (sampleStep ag s).pinsReady = s.pinsReady := rfl
@[simp] theorem sampleStep_engine (ag : Agent) (s : State) : (sampleStep ag s).engine = s.engine := rfl
@[simp] theorem sampleStep_addrSet (ag : Agent) (s : State) : (sampleStep ag s).addrSet = s.addrSet := rfl
@[simp] theorem sampleStep_hostPhase (ag : Agent) (s : State) : (sampleStep ag s).hostPhase = s.hostPhase := rfl
@[simp] theorem sampleStep_faulted (ag : Agent) (s : State) : (sampleStep ag s).faulted = s.faulted := rfl
@[simp] theorem sampleStep_fcode (ag : Agent) (s : State) : (sampleStep ag s).fcode = s.fcode := rfl
@[simp] theorem sampleStep_fcmd (ag : Agent) (s : State) : (sampleStep ag s).fcmd = s.fcmd := rfl
@[simp] theorem sampleStep_cpW (ag : Agent) (s : State) : (sampleStep ag s).cpW = s.cpW := rfl
@[simp] theorem sampleStep_txq (ag : Agent) (s : State) : (sampleStep ag s).txq = s.txq := rfl
@[simp] theorem sampleStep_rxq (ag : Agent) (s : State) : (sampleStep ag s).rxq = s.rxq := rfl
@[simp] theorem sampleStep_latchH (ag : Agent) (s : State) : (sampleStep ag s).latchH = s.latchH := rfl
@[simp] theorem sampleStep_latchL (ag : Agent) (s : State) : (sampleStep ag s).latchL = s.latchL := rfl
@[simp] theorem sampleStep_rdcnt (ag : Agent) (s : State) : (sampleStep ag s).rdcnt = s.rdcnt := rfl
@[simp] theorem sampleStep_trace (ag : Agent) (s : State) : (sampleStep ag s).trace = s.trace ++ [⟨ag, .smp s.sampleWord⟩] := rfl
@[simp] theorem sampleStep_cmds (ag : Agent) (s : State) : (sampleStep ag s).cmds = s.cmds := rfl
@[simp] theorem sampleStep_sched (ag : Agent) (s : State) : (sampleStep ag s).sched = s.sched := rfl
@[simp] theorem sampleStep_cart (ag : Agent) (s : State) : (sampleStep ag s).cart = if s.cartDrives s.draws then s.cart.tail else s.cart := rfl
@[simp] theorem sampleStep_draws (ag : Agent) (s : State) : (sampleStep ag s).draws = s.draws + 1 := rfl

@[simp] theorem pushTrigger_rdData (s : State) : (pushTrigger s).rdData = s.rdData := rfl
@[simp] theorem pushTrigger_cpState (s : State) : (pushTrigger s).cpState = s.cpState := rfl
@[simp] theorem pushTrigger_dir (s : State) : (pushTrigger s).dir = s.dir := rfl
@[simp] theorem pushTrigger_out (s : State) : (pushTrigger s).out = s.out := rfl
@[simp] theorem pushTrigger_reOwner (s : State) : (pushTrigger s).reOwner = s.reOwner := rfl
@[simp] theorem pushTrigger_pinsReady (s : State) : (pushTrigger s).pinsReady = s.pinsReady := rfl
@[simp] theorem pushTrigger_engine (s : State) : (pushTrigger s).engine = s.engine := rfl
@[simp] theorem pushTrigger_addrSet (s : State) : (pushTrigger s).addrSet = s.addrSet := rfl
@[simp] theorem pushTrigger_hostPhase (s : State) : (pushTrigger s).hostPhase = s.hostPhase := rfl
@[simp] theorem pushTrigger_faulted (s : State) : (pushTrigger s).faulted = s.faulted := rfl
@[simp] theorem pushTrigger_fcode (s : State) : (pushTrigger s).fcode = s.fcode := rfl
@[simp] theorem pushTrigger_fcmd (s : State) : (pushTrigger s).fcmd = s.fcmd := rfl
@[simp] theorem pushTrigger_cpW (s : State) : (pushTrigger s).cpW = s.cpW := rfl
@[simp] theorem pushTrigger_txq (s : State) : (pushTrigger s).txq = s.txq ++ [.trig] := rfl
@[simp] theorem pushTrigger_rxq (s : State) : (pushTrigger s).rxq = s.rxq := rfl
@[simp] theorem pushTrigger_latchH (s : State) : (pushTrigger s).latchH = s.latchH := rfl
@[simp] theorem pushTrigger_latchL (s : State) : (pushTrigger s).latchL = s.latchL := rfl
@[simp] theorem pushTrigger_rdcnt (s : State) : (pushTrigger s).rdcnt = s.rdcnt := rfl
@[simp] theorem pushTrigger_trace (s : State) : (pushTrigger s).trace = s.trace := rfl
@[simp] theorem pushTrigger_cmds (s : State) : (pushTrigger s).cmds = s.cmds := rfl
@[simp] theorem pushTrigger_sched (s : State) : (pushTrigger s).sched = s.sched := rfl
@[simp] theorem pushTrigger_cart (s : State) : (pushTrigger s).cart = s.cart := rfl
@[simp] theorem pushTrigger_draws (s : State) : (pushTrigger s).draws = s.draws := rfl

@[simp] theorem pushWord_rdData (w : Word16) (s : State) : (pushWord w s).rdData = s.rdData := rfl
@[simp] theorem pushWord_cpState (w : Word16) (s : State) : (pushWord w s).cpState = s.cpState := rfl
@[simp] theorem pushWord_dir (w : Word16) (s : State) : (pushWord w s).dir = s.dir := rfl
@[simp] theorem pushWord_out (w : Word16) (s : State) : (pushWord w s).out = s.out := rfl
@[simp] theorem pushWord_reOwner (w : Word16) (s : State) : (pushWord w s).reOwner = s.reOwner := rfl
@[simp] theorem pushWord_pinsReady (w : Word16) (s : State) : (pushWord w s).pinsReady = s.pinsReady := rfl
@[simp] theorem pushWord_engine (w : Word16) (s : State) : (pushWord w s).engine = s.engine := rfl
@[simp] theorem pushWord_addrSet (w : Word16) (s : State) : (pushWord w s).addrSet = s.addrSet := rfl
@[simp] theorem pushWord_hostPhase (w : Word16) (s : State) : (pushWord w s).hostPhase = s.hostPhase := rfl
@[simp] theorem pushWord_faulted (w : Word16) (s : State) : (pushWord w s).faulted = s.faulted := rfl
@[simp] theorem pushWord_fcode (w : Word16) (s : State) : (pushWord w s).fcode = s.fcode := rfl
@[simp] theorem pushWord_fcmd (w : Word16) (s : State) : (pushWord w s).fcmd = s.fcmd := rfl
@[simp] theorem pushWord_cpW (w : Word16) (s : State) : (pushWord w s).cpW = s.cpW := rfl
@[simp] theorem pushWord_txq (w : Word16) (s : State) : (pushWord w s).txq = s.txq := rfl
@[simp] theorem pushWord_rxq (w : Word16) (s : State) : (pushWord w s).rxq = s.rxq ++ [w] := rfl
@[simp] theorem pushWord_latchH (w : Word16) (s : State) : (pushWord w s).latchH = s.latchH := rfl
@[simp] theorem pushWord_latchL (w : Word16) (s : State) : (pushWord w s).latchL = s.latchL := rfl
@[simp] theorem pushWord_rdcnt (w : Word16) (s : State) : (pushWord w s).rdcnt = s.rdcnt := rfl
@[simp] theorem pushWord_trace (w : Word16) (s : State) : (pushWord w s).trace = s.trace := rfl
@[simp] theorem pushWord_cmds (w : Word16) (s : State) : (pushWord w s).cmds = s.cmds := rfl
@[simp] theorem pushWord_sched (w : Word16) (s : State) : (pushWord w s).sched = s.sched := rfl
@[simp] theorem pushWord_cart (w : Word16) (s : State) : (pushWord w s).cart = s.cart := rfl
@[simp] theorem pushWord_draws (w : Word16) (s : State) : (pushWord w s).draws = s.draws := rfl

end Sys2Proof.Machine
end

