-- ==== Sys2Proof/Laws/Ops.lean ====
section
/-! SUPPORT. What each shared operation can do, said once: levels, reactions, primitives, samples, the frames of a command and of a micro-step, and the fields of a command word. -/

namespace Sys2Proof.Machine

/-! Levels (40_bus_pin_set.md R126, R131). -/

theorem ctrlLevel_driven {s : State} {l : CtrlLine} (h : s.dir.ctrl l = true) (n : Nat) :
    s.ctrlLevel l n = s.out.ctrl l := by
  simp [State.ctrlLevel, h]

/-- With RE inactive every AD output line is at its `OUT` and every input line is a draw (R126). -/
theorem adLevels_inactive {s : State} {n : Nat} (h : s.ctrlLevel .re n = true) (w : Word16) :
    s.adLevels w n = (s.out.ad &&& s.dir.ad) ||| (Config.freeAd n &&& ~~~ s.dir.ad) := by
  by_cases had : s.dir.ad = 0xFFFF#16
  · have ones : 0xFFFF#16 = BitVec.allOnes 16 := by decide
    simp only [State.adLevels, State.cartDrives, State.contends, h, had, ones, BitVec.and_allOnes]
    simp
  · simp [State.adLevels, State.cartDrives, State.contends, h, had]

/-- With RE asserted and some AD line an output, every AD line is a draw (R128). -/
theorem adLevels_contention {s : State} {n : Nat} (h : s.ctrlLevel .re n = false) (had : s.dir.ad ≠ 0#16)
    (w : Word16) : s.adLevels w n = Config.freeAd n := by
  simp [State.adLevels, State.cartDrives, State.contends, h, had]

/-- With RE driven inactive and every AD line an output, the levels are `OUT` (R131). -/
theorem adLevels_out {s : State} (hre : s.dir.re = true) (hhigh : s.out.re = true) (had : s.dir.ad = 0xFFFF#16)
    (w : Word16) (n : Nat) : s.adLevels w n = s.out.ad := by
  simp [State.adLevels, State.cartDrives, State.contends, State.ctrlLevel, Lines.ctrl, hre, hhigh, had]

theorem busval_out {s : State} (hre : s.dir.re = true) (hhigh : s.out.re = true) (had : s.dir.ad = 0xFFFF#16)
    (n : Nat) : s.busval n = s.out.ad :=
  adLevels_out hre hhigh had _ _

theorem cartDrives_driven {s : State} (hre : s.dir.re = true) (n : Nat) :
    s.cartDrives n = (!s.out.re && decide (s.dir.ad = 0#16)) := by
  simp [State.cartDrives, State.ctrlLevel, Lines.ctrl, hre]

theorem adLevels_read {s : State} (hre : s.dir.re = true) (hlow : s.out.re = false) (had : s.dir.ad = 0#16)
    (w : Word16) (n : Nat) : s.adLevels w n = w := by
  simp [State.adLevels, cartDrives_driven hre, hlow, had]

/-- With RE asserted and every AD line an input, a sample is the cartridge's word (R126, R127). -/
theorem sampleWord_read {s : State} (hre : s.dir.re = true) (hlow : s.out.re = false) (had : s.dir.ad = 0#16) :
    s.sampleWord = s.cart.head?.getD (s.cartWord s.draws) :=
  adLevels_read hre hlow had _ _

theorem sampleStep_cart_read {s : State} (ag : Agent) (hre : s.dir.re = true) (hlow : s.out.re = false)
    (had : s.dir.ad = 0#16) : (sampleStep ag s).cart = s.cart.tail := by
  simp [cartDrives_driven hre, hlow, had]

/-! Reactions (R129, R130). -/

theorem react_latchH (b s : State) :
    (react b s).latchH = if rises b s .aleh then s.busval (s.draws + 2) else s.latchH := rfl

theorem react_latchL (b s : State) :
    (react b s).latchL = if rises b s .alel then lowCapture b s else s.latchL := rfl

theorem react_rdcnt (b s : State) : (react b s).rdcnt = reactCount b s := rfl

theorem lowCapture_out {b s : State} (hre : s.dir.re = true) (hhigh : s.out.re = true) (had : s.dir.ad = 0xFFFF#16) :
    lowCapture b s = s.out.ad :=
  busval_out (s := captureHigh b s) hre hhigh had _

theorem rises_driven {b s : State} {l : CtrlLine} (hb : b.dir.ctrl l = true) (hs : s.dir.ctrl l = true) :
    rises b s l = (!b.out.ctrl l && s.out.ctrl l) := by
  simp [rises, ctrlLevel_driven hb, ctrlLevel_driven hs]

/-- A reaction changes the latches, `RDCNT` and the draw counter, and nothing else. -/
theorem react_frame (b s : State) :
    react b s = { s with
      latchH := (react b s).latchH, latchL := (react b s).latchL, rdcnt := (react b s).rdcnt, draws := s.draws + 4 } := rfl

/-- An event that raises none of ALEH, ALEL and RE causes no reaction. -/
theorem react_quiet {b s : State} (h : rises b s .aleh = false) (l : rises b s .alel = false)
    (r : rises b s .re = false) : react b s = { s with draws := s.draws + 4 } := by
  rw [react_frame, react_latchH, react_latchL, react_rdcnt]
  simp [reactCount, h, l, r]

/-! Primitives (R122). -/

theorem drive_go {ag : Agent} {c : Word40} {gv : GroupVal} {s : State}
    (h : gv.group.hasRe = false ∨ ag = s.reOwner) : drive ag c gv s = .go (driveLines ag gv s) := by
  rcases h with h | h <;> simp [drive, h]

theorem drive_stop {ag : Agent} {c : Word40} {gv : GroupVal} {s : State} (h : gv.group.hasRe = true)
    (ho : ag ≠ s.reOwner) : drive ag c gv s = .stop (raiseFault .busConflict c s) := by
  simp [drive, h, ho]

/-- All a `Drive` can do: its effect, or the fault of a non-owner. -/
theorem drive_cases (ag : Agent) (c : Word40) (gv : GroupVal) (s : State) :
    drive ag c gv s = .go (driveLines ag gv s) ∨
      (gv.group.hasRe = true ∧ ag ≠ s.reOwner ∧ drive ag c gv s = .stop (raiseFault .busConflict c s)) := by
  by_cases h : gv.group.hasRe = true ∧ ag ≠ s.reOwner
  · exact .inr ⟨h.1, h.2, drive_stop h.1 h.2⟩
  · exact .inl (by simp only [drive, if_neg h])

@[simp] theorem andThen_go (s : State) (k : State → Flow) : (Flow.go s).andThen k = k s := rfl
@[simp] theorem andThen_stop (s : State) (k : State → Flow) : (Flow.stop s).andThen k = .stop s := rfl
@[simp] theorem thenDo_go (s : State) (k : State → State) : (Flow.go s).thenDo k = .go (k s) := rfl
@[simp] theorem thenDo_stop (s : State) (k : State → State) : (Flow.stop s).thenDo k = .stop s := rfl
@[simp] theorem final_go (s : State) : (Flow.go s).final = s := rfl
@[simp] theorem final_stop (s : State) : (Flow.stop s).final = s := rfl

/-! Queues (10_state.md R45): every depth is at least 1. -/

theorem txFull_nil {s : State} (h : s.txq = []) : s.txFull = false := by
  simp [State.txFull, Config.txDepth, h]

theorem rxFull_nil {s : State} (h : s.rxq = []) : s.rxFull = false := by
  simp [State.rxFull, Config.rxDepth, h]

/-! The frame of a command (60_exceptions.md R211 to R214). -/

theorem command_halted {c : Word40} {ks : List (Bool × FaultCode)} {s : State}
    {e : Host.Outcome State Fault Refusal} (h : s.faulted = true) : command c ks s e = .next s := by
  simp [command, h]

theorem command_fault {c : Word40} {ks : List (Bool × FaultCode)} {s : State} {k : FaultCode}
    {e : Host.Outcome State Fault Refusal} (h : s.faulted = false) (hk : firstCause ks = some k) :
    command c ks s e = .next (raiseFault k c s) := by
  simp [command, h, hk]

theorem command_pass {c : Word40} {ks : List (Bool × FaultCode)} {s : State}
    {e : Host.Outcome State Fault Refusal} (h : s.faulted = false) (hk : firstCause ks = none) :
    command c ks s e = e := by
  simp [command, h, hk]

/-- All a command can do: nothing where the block is halted, the fault of a check, or its effect. -/
theorem command_cases (c : Word40) (ks : List (Bool × FaultCode)) (s : State)
    (e : Host.Outcome State Fault Refusal) :
    (s.faulted = true ∧ command c ks s e = .next s) ∨
      (∃ k, s.faulted = false ∧ firstCause ks = some k ∧ command c ks s e = .next (raiseFault k c s)) ∨
        (s.faulted = false ∧ firstCause ks = none ∧ command c ks s e = e) := by
  cases h : s.faulted
  · cases hk : firstCause ks with
    | none => exact .inr (.inr ⟨rfl, rfl, command_pass h hk⟩)
    | some k => exact .inr (.inl ⟨k, rfl, rfl, command_fault h hk⟩)
  · exact .inl ⟨rfl, command_halted h⟩

/-! The frame of a micro-step (43_timed_coprocessor.md R189). -/

theorem microStep_run {u : Word3} {s e : State} (h : s.faulted = false) (hu : s.cpState = u) :
    microStep u s e = .next e := by
  simp [microStep, h, hu]

/-- All a micro-step's frame can do: nothing, or the effect at its own `CP_STATE`; it never stops. -/
theorem microStep_cases (u : Word3) (s e : State) :
    (microStep u s e = .next s) ∨ (s.faulted = false ∧ s.cpState = u ∧ microStep u s e = .next e) := by
  by_cases h : s.faulted = true ∨ s.cpState ≠ u
  · exact .inl (by simp only [microStep, if_pos h])
  · simp only [not_or, Bool.not_eq_true, not_not] at h
    exact .inr ⟨h.1, h.2, microStep_run h.1 h.2⟩

/-! The fields of a command word (30_encoding.md R100). -/

@[simp] theorem opcodeField_mkCommand (o : Word8) (x : Word32) : opcodeField (mkCommand o x) = o := by
  apply BitVec.eq_of_getLsbD_eq
  intro i hi
  simp only [opcodeField, mkCommand, BitVec.getLsbD_extractLsb', BitVec.getLsbD_append]
  simp [hi]

@[simp] theorem operandField_mkCommand (o : Word8) (x : Word32) : operandField (mkCommand o x) = x := by
  apply BitVec.eq_of_getLsbD_eq
  intro i hi
  simp only [operandField, mkCommand, BitVec.getLsbD_extractLsb', BitVec.getLsbD_append]
  simp [hi]

theorem mkCommand_fields (c : Word40) : mkCommand (opcodeField c) (operandField c) = c := by
  apply BitVec.eq_of_getLsbD_eq
  intro i hi
  simp only [opcodeField, operandField, mkCommand, BitVec.getLsbD_extractLsb', BitVec.getLsbD_append]
  by_cases h : i < 32
  · simp [h]
  · simp only [h, decide_false, if_false]
    have h2 : i - 32 < 8 := by omega
    have h3 : 32 + (i - 32) = i := by omega
    simp [h2, h3]

end Sys2Proof.Machine
end

