-- ==== Sys2Proof/Laws/PerInstr.lean ====
section
/-! SUPPORT. The family TableRow: the encoder's word of an instruction has the fixed bits of its row of spec/opcode_table.json, and its row's agent. One lemma per constructor. -/

namespace Sys2Proof.Laws.TableRow

/-- Whether a code word has the bits a row's "match" fixes under its "mask", in a row for that agent. -/
def fits (mask pattern : Nat) (ag : Agent) : CodeWord → Prop
  | .command c => ag = .host ∧ c &&& BitVec.ofNat 40 mask = BitVec.ofNat 40 pattern
  | .micro u => ag = .cp ∧ u &&& BitVec.ofNat 3 mask = BitVec.ofNat 3 pattern

/-- The "mask" of an instruction's row. -/
def mask : Instr → Nat
  | .initPins => 0xFFFFFFFFFF
  | .initEngine _ => 0xFFFFFFFFFE
  | .setAddress _ => 0xFF00000000
  | .readWord => 0xFFFFFFFFFF
  | .uWaitTrig => 0x7
  | .uReAssert => 0x7
  | .uHold => 0x7
  | .uSample => 0x7
  | .uReDeassert => 0x7
  | .uPush => 0x7

/-- The "match" of an instruction's row. -/
def pattern : Instr → Nat
  | .initPins => 0x0100000000
  | .initEngine _ => 0x0200000000
  | .setAddress _ => 0x0300000000
  | .readWord => 0x0400000000
  | .uWaitTrig => 0x0
  | .uReAssert => 0x1
  | .uHold => 0x2
  | .uSample => 0x3
  | .uReDeassert => 0x4
  | .uPush => 0x5

/-- The instruction's code word fits its row. -/
def Statement (i : Instr) : Prop := fits (mask i) (pattern i) i.agent (encode i)

theorem initPins : Statement .initPins := by
  simp only [Statement, encode, fits]; decide

theorem initEngine (v : BitVec 1) : Statement (.initEngine v) := by
  have h : v = 0#1 ∨ v = 1#1 := by
    rcases BitVec.eq_zero_or_eq_one v with h | h <;> simp [h]
  rcases h with rfl | rfl <;> (simp only [Statement, encode, fits]; decide)

theorem setAddress (a : Word32) : Statement (.setAddress a) := by
  refine ⟨rfl, ?_⟩
  have h : BitVec.ofNat 40 0xFF00000000 = (0xFF#8 ++ 0#32 : BitVec 40) := by decide
  have hp : BitVec.ofNat 40 0x0300000000 = (0x03#8 ++ 0#32 : BitVec 40) := by decide
  change (0x03#8 ++ a) &&& BitVec.ofNat 40 0xFF00000000 = BitVec.ofNat 40 0x0300000000
  rw [h, hp]
  rw [BitVec.and_append]
  simp

theorem readWord : Statement .readWord := by
  simp only [Statement, encode, fits]; decide

theorem uWaitTrig : Statement .uWaitTrig := by
  simp only [Statement, encode, fits]; decide

theorem uReAssert : Statement .uReAssert := by
  simp only [Statement, encode, fits]; decide

theorem uHold : Statement .uHold := by
  simp only [Statement, encode, fits]; decide

theorem uSample : Statement .uSample := by
  simp only [Statement, encode, fits]; decide

theorem uReDeassert : Statement .uReDeassert := by
  simp only [Statement, encode, fits]; decide

theorem uPush : Statement .uPush := by
  simp only [Statement, encode, fits]; decide

end Sys2Proof.Laws.TableRow
end

