-- ==== Sys2Proof/Laws/Step.lean ====
section
/-! SUPPORT. What a command, a micro-step and a step can do, said once: each lemma names every way the transition can end, guards included. -/

namespace Sys2Proof.Machine

/-! The commands' effects: how a sequence of primitives ends (40_bus_pin_set.md R122, 60_exceptions.md R212). -/

/-- The state in which SET_ADDRESS ends once its second event has been made (41_address_controller.md R140). -/
theorem setAddressEffect_final (a : Word32) (s : State) :
    (inactiveGroup s.engine = .ctrl4 ∧ s.reOwner = .cp ∧ (setAddressEffect a s).final =
      raiseFault .busConflict (setAddressWord a) (cfg .host (.ad 0x0000#16) .output s)) ∨
    ((inactiveGroup s.engine = .ctrl3 ∨ s.reOwner = .host) ∧ (setAddressEffect a s).final =
      { (setDir .host .ad .input <| driveLines .host (.ctrl (.only .alel) true) <|
          driveLines .host (.ctrl (.only .alel) false) <| driveLines .host (.ad (addrLow a)) <|
          driveLines .host (.ctrl (.only .aleh) true) <| driveLines .host (.ctrl (.only .aleh) false) <|
          driveLines .host (.ad (addrHigh a)) <| driveLines .host (.ctrl (inactiveGroup s.engine) true) <|
          cfg .host (.ad 0x0000#16) .output s) with addrSet := true }) := by
  generalize hs1 : cfg .host (.ad 0x0000#16) .output s = s1
  have owner : s1.reOwner = s.reOwner := by rw [← hs1]; rfl
  have free : ∀ gv : GroupVal, gv.group.hasRe = false → ∀ s, drive .host (setAddressWord a) gv s =
      .go (driveLines .host gv s) := fun gv h s => drive_go (.inl h)
  unfold setAddressEffect
  simp only [hs1]
  rcases drive_cases .host (setAddressWord a) (.ctrl (inactiveGroup s.engine) true) s1 with e | ⟨hre, ho, e⟩
  · right
    constructor
    · cases hg : s.engine
      · right; cases ho : s.reOwner
        · rfl
        · rw [hg, drive_stop (by rfl) (by simp [owner, ho])] at e; cases e
      · right; cases ho : s.reOwner
        · rfl
        · rw [hg, drive_stop (by rfl) (by simp [owner, ho])] at e; cases e
      · left; rfl
    · rw [e]
      simp only [andThen_go]
      rw [free _ rfl]; simp only [andThen_go]
      rw [free _ rfl]; simp only [andThen_go]
      rw [free _ rfl]; simp only [andThen_go]
      rw [free _ rfl]; simp only [andThen_go]
      rw [free _ rfl]; simp only [andThen_go]
      rw [free _ rfl]; simp only [thenDo_go, final_go]
  · left
    refine ⟨?_, ?_, by rw [e]; rfl⟩
    · cases hg : s.engine <;> simp_all [inactiveGroup, GroupVal.group, Group.hasRe, CtrlGroup.has]
    · cases hr : s.reOwner <;> simp_all

/-- U1 and U4 end in one event, or in the fault of a co-processor that does not own RE (43_timed_coprocessor.md R184, R187). -/
theorem strobeRe_cases (b : Bool) (u : Word3) (s : State) :
    (s.reOwner = .cp ∧ strobeRe b u s = { driveLines .cp (.ctrl (.only .re) b) s with cpState := u }) ∨
    (s.reOwner = .host ∧ strobeRe b u s = raiseFault .busConflict readWordWord s) := by
  unfold strobeRe
  cases ho : s.reOwner
  · right
    rw [drive_stop (by rfl) (by simp [ho])]; exact ⟨rfl, rfl⟩
  · left
    rw [drive_go (.inr ho.symm)]; exact ⟨rfl, rfl⟩

/-- The Polled read ends in its three events, or in the fault of a Host that does not own RE (42_word_read_engine.md R162). -/
theorem readPolled_cases (s : State) :
    (s.reOwner = .host ∧ (readPolled s).final =
      { (driveLines .host (.ctrl (.only .re) true) <| sampleStep .host <|
          driveLines .host (.ctrl (.only .re) false) s) with
        rdData := some (driveLines .host (.ctrl (.only .re) false) s).sampleWord }) ∨
    (s.reOwner = .cp ∧ (readPolled s).final = raiseFault .busConflict readWordWord s) := by
  unfold readPolled
  cases ho : s.reOwner
  · left
    rw [drive_go (.inr ho.symm)]; simp only [andThen_go]
    rw [drive_go (.inr (by simp [ho]))]; simp
  · right
    rw [drive_stop (by rfl) (by simp [ho])]; simp

/-- INIT_ENGINE TIMED ends with RE held inactive by the co-processor, at U0 (42_word_read_engine.md R160). -/
theorem startCoprocessor_final (s : State) :
    (startCoprocessor (initEngineWord 1#1) s).final =
      { driveLines .cp (.ctrl (.only .re) true)
          { s with engine := .timed, reOwner := .cp, txq := [], rxq := [], cpW := none } with cpState := 0#3 } := by
  unfold startCoprocessor
  generalize hu : ({ s with engine := .timed, reOwner := .cp, txq := [], rxq := [], cpW := none } : State) = u
  rw [drive_go (.inr (by rw [← hu]))]; rfl

/-! The micro-steps at their own `CP_STATE` (43_timed_coprocessor.md R183 to R188). -/

theorem exec_uWaitTrig_run (s : State) (hf : s.faulted = false) (hc : s.cpState = 0#3) :
    exec .uWaitTrig s = .next (takeTrigger s) := microStep_run hf hc

theorem exec_uReAssert_run (s : State) (hf : s.faulted = false) (hc : s.cpState = 1#3) :
    exec .uReAssert s = .next (strobeRe false 2#3 s) := microStep_run hf hc

theorem exec_uHold_run (s : State) (hf : s.faulted = false) (hc : s.cpState = 2#3) :
    exec .uHold s = .next { s with cpState := 3#3 } := microStep_run hf hc

theorem exec_uSample_run (s : State) (hf : s.faulted = false) (hc : s.cpState = 3#3) :
    exec .uSample s = .next (sampleToCpW s) := microStep_run hf hc

theorem exec_uReDeassert_run (s : State) (hf : s.faulted = false) (hc : s.cpState = 4#3) :
    exec .uReDeassert s = .next (strobeRe true 5#3 s) := microStep_run hf hc

theorem exec_uPush_run (s : State) (hf : s.faulted = false) (hc : s.cpState = 5#3) :
    exec .uPush s = .next (pushCpW s) := microStep_run hf hc

theorem takeTrigger_nil {s : State} (h : s.txq = []) : takeTrigger s = s := by
  unfold takeTrigger; rw [h]

theorem takeTrigger_cons {s : State} {q : Trigger} {rest : List Trigger} (h : s.txq = q :: rest) :
    takeTrigger s = { s with txq := rest, cpState := 1#3 } := by
  unfold takeTrigger; rw [h]

@[simp] theorem cpWord_some {s : State} {w : Word16} (h : s.cpW = some w) : s.cpWord = w := by
  simp [State.cpWord, h]

@[simp] theorem cpWord_none {s : State} (h : s.cpW = none) : s.cpWord = Config.freeCpW s.draws := by
  simp [State.cpWord, h]

theorem pushCpW_full {s : State} (h : s.rxFull = true) : pushCpW s = s := by
  rw [pushCpW, if_pos h]

theorem pushCpW_some {s : State} {w : Word16} (h : s.rxFull = false) (hw : s.cpW = some w) :
    pushCpW s = { pushWord w s with cpState := 0#3 } := by
  simp [pushCpW, h, hw]

theorem pushCpW_none {s : State} (h : s.rxFull = false) (hw : s.cpW = none) :
    pushCpW s = { pushWord (Config.freeCpW s.draws) s with cpState := 0#3, draws := s.draws + 1 } := by
  simp [pushCpW, h, hw]

/-- All U5 can do: hold, or push one word, that of `CP_W` where it holds one. -/
theorem pushCpW_cases (s : State) :
    pushCpW s = s ∨ ∃ w n, (∀ v, s.cpW = some v → w = v ∧ n = s.draws) ∧
      pushCpW s = { pushWord w s with cpState := 0#3, draws := n } := by
  rcases Bool.eq_false_or_eq_true s.rxFull with h | h
  · exact .inl (pushCpW_full h)
  · cases hw : s.cpW with
    | none => exact .inr ⟨_, _, by simp, pushCpW_none h hw⟩
    | some v => exact .inr ⟨v, s.draws, by simp, pushCpW_some h hw⟩

/-- U3 with RE asserted and the AD lines inputs takes the environment's next word (R186, 40_bus_pin_set.md R127). -/
theorem sampleToCpW_read {s : State} (hre : s.dir.re = true) (hlow : s.out.re = false) (had : s.dir.ad = 0#16) :
    sampleToCpW s = { s with
      cpW := some s.sampleWord, cpState := 4#3, cart := s.cart.tail, draws := s.draws + 1,
      trace := s.trace ++ [⟨.cp, .smp s.sampleWord⟩] } := by
  have h : sampleToCpW s = { s with
      cpW := some s.sampleWord, cpState := 4#3, cart := (sampleStep .cp s).cart, draws := s.draws + 1,
      trace := s.trace ++ [⟨.cp, .smp s.sampleWord⟩] } := rfl
  rw [h, sampleStep_cart_read .cp hre hlow had]

/-! What an instruction can do. -/

/-- All a command can do: nothing, a fault of its checks, or its effect with every check passed. -/
theorem exec_command_cases (i : Instr) (s t : State) (hi : i.agent = .host) (h : exec i s = .next t) :
    t = s ∨ (∃ k c, s.faulted = false ∧ t = raiseFault k c s) ∨ (s.faulted = false ∧ s.hostPhase = .ready ∧
      ((i = .initPins ∧ s.pinsReady = false ∧ t = initPinsEffect s) ∨
      (i = .initEngine 0#1 ∧ s.pinsReady = true ∧ s.engine = .none ∧ t = { s with engine := .polled }) ∨
      (i = .initEngine 1#1 ∧ s.pinsReady = true ∧ s.engine = .none ∧
        t = (startCoprocessor (initEngineWord 1#1) s).final) ∨
      (∃ a, i = .setAddress a ∧ s.pinsReady = true ∧ t = (setAddressEffect a s).final) ∨
      (i = .readWord ∧ s.pinsReady = true ∧ s.addrSet = true ∧ s.engine = .timed ∧ t = readTimedIssue s) ∨
      (i = .readWord ∧ s.pinsReady = true ∧ s.addrSet = true ∧ s.engine = .polled ∧
        t = (readPolled s).final))) := by
  have C := fun c ks e => command_cases c ks s e
  cases i with
  | initPins =>
    rcases C _ _ _ with ⟨_, e⟩ | ⟨k, hf, _, e⟩ | ⟨hf, hc, e⟩ <;> rw [exec, execInitPins, e] at h <;> cases h
    · exact .inl rfl
    · exact .inr (.inl ⟨_, _, hf, rfl⟩)
    · refine .inr (.inr ⟨hf, ?_⟩)
      cases hp : s.hostPhase <;> cases hr : s.pinsReady <;> simp_all [firstCause, initPinsChecks, busBusy]
  | initEngine v =>
    rcases C _ _ _ with ⟨_, e⟩ | ⟨k, hf, _, e⟩ | ⟨hf, hc, e⟩ <;> rw [exec, execInitEngine, e] at h
    · cases h; exact .inl rfl
    · cases h; exact .inr (.inl ⟨_, _, hf, rfl⟩)
    · refine .inr (.inr ⟨hf, ?_⟩)
      rcases BitVec.eq_zero_or_eq_one v with hv | hv <;> subst hv <;> simp at h <;> subst h <;>
        cases hp : s.hostPhase <;> cases hr : s.pinsReady <;> cases he : s.engine <;>
          simp_all [firstCause, initEngineChecks, busBusy]
  | setAddress a =>
    rcases C _ _ _ with ⟨_, e⟩ | ⟨k, hf, _, e⟩ | ⟨hf, hc, e⟩ <;> rw [exec, execSetAddress, e] at h <;> cases h
    · exact .inl rfl
    · exact .inr (.inl ⟨_, _, hf, rfl⟩)
    · refine .inr (.inr ⟨hf, ?_⟩)
      cases hp : s.hostPhase <;> cases hr : s.pinsReady <;> simp_all [firstCause, setAddressChecks, busBusy]
  | readWord =>
    rcases C _ _ _ with ⟨_, e⟩ | ⟨k, hf, _, e⟩ | ⟨hf, hc, e⟩ <;> rw [exec, execReadWord, e] at h
    · cases h; exact .inl rfl
    · cases h; exact .inr (.inl ⟨_, _, hf, rfl⟩)
    · refine .inr (.inr ⟨hf, ?_⟩)
      split at h <;> cases h <;> cases hp : s.hostPhase <;> cases hr : s.pinsReady <;> cases he : s.engine <;>
        cases ha : s.addrSet <;> simp_all [firstCause, readWordChecks, busBusy]
  | _ => cases hi

/-- A command always has a next state. -/
theorem exec_command_next (i : Instr) (s : State) (hi : i.agent = .host) : ∃ t, exec i s = .next t := by
  have C := fun c ks e => command_cases c ks s e
  cases i with
  | initPins =>
    rw [exec, execInitPins]; rcases C _ _ _ with ⟨_, e⟩ | ⟨k, _, _, e⟩ | ⟨_, _, e⟩ <;> rw [e] <;> exact ⟨_, rfl⟩
  | initEngine v =>
    rw [exec, execInitEngine]; rcases C _ _ _ with ⟨_, e⟩ | ⟨k, _, _, e⟩ | ⟨_, _, e⟩ <;> rw [e]
    · exact ⟨_, rfl⟩
    · exact ⟨_, rfl⟩
    · split <;> exact ⟨_, rfl⟩
  | setAddress a =>
    rw [exec, execSetAddress]; rcases C _ _ _ with ⟨_, e⟩ | ⟨k, _, _, e⟩ | ⟨_, _, e⟩ <;> rw [e] <;> exact ⟨_, rfl⟩
  | readWord =>
    rw [exec, execReadWord]; rcases C _ _ _ with ⟨_, e⟩ | ⟨k, _, _, e⟩ | ⟨_, _, e⟩ <;> rw [e]
    · exact ⟨_, rfl⟩
    · exact ⟨_, rfl⟩
    · split <;> exact ⟨_, rfl⟩
  | _ => cases hi

/-- All a micro-step can do: nothing, or its effect at its own `CP_STATE`. -/
theorem exec_microStep_cases (i : Instr) (s t : State) (hi : i.agent = .cp) (h : exec i s = .next t) :
    t = s ∨ (s.faulted = false ∧
      ((i = .uWaitTrig ∧ s.cpState = 0#3 ∧ ∃ q rest, s.txq = q :: rest ∧
        t = { s with txq := rest, cpState := 0b001#3 }) ∨
      (i = .uReAssert ∧ s.cpState = 1#3 ∧ t = strobeRe false 2#3 s) ∨
      (i = .uHold ∧ s.cpState = 2#3 ∧ t = { s with cpState := 0b011#3 }) ∨
      (i = .uSample ∧ s.cpState = 3#3 ∧ t = sampleToCpW s) ∨
      (i = .uReDeassert ∧ s.cpState = 4#3 ∧ t = strobeRe true 5#3 s) ∨
      (i = .uPush ∧ s.cpState = 5#3 ∧ ∃ w n, (∀ v, s.cpW = some v → w = v ∧ n = s.draws) ∧
        t = { pushWord w s with cpState := 0b000#3, draws := n }))) := by
  have M := fun u e => microStep_cases u s e
  cases i with
  | uWaitTrig =>
    rcases M _ _ with e | ⟨hf, hu, e⟩ <;> rw [exec, execUWaitTrig, e] at h <;> cases h
    · exact .inl rfl
    · cases hq : s.txq with
      | nil => exact .inl (takeTrigger_nil hq)
      | cons q rest => exact .inr ⟨hf, .inl ⟨rfl, hu, q, rest, rfl, takeTrigger_cons hq⟩⟩
  | uReAssert =>
    rcases M _ _ with e | ⟨hf, hu, e⟩ <;> rw [exec, execUReAssert, e] at h <;> cases h
    · exact .inl rfl
    · exact .inr ⟨hf, .inr (.inl ⟨rfl, hu, rfl⟩)⟩
  | uHold =>
    rcases M _ _ with e | ⟨hf, hu, e⟩ <;> rw [exec, execUHold, e] at h <;> cases h
    · exact .inl rfl
    · exact .inr ⟨hf, .inr (.inr (.inl ⟨rfl, hu, rfl⟩))⟩
  | uSample =>
    rcases M _ _ with e | ⟨hf, hu, e⟩ <;> rw [exec, execUSample, e] at h <;> cases h
    · exact .inl rfl
    · exact .inr ⟨hf, .inr (.inr (.inr (.inl ⟨rfl, hu, rfl⟩)))⟩
  | uReDeassert =>
    rcases M _ _ with e | ⟨hf, hu, e⟩ <;> rw [exec, execUReDeassert, e] at h <;> cases h
    · exact .inl rfl
    · exact .inr ⟨hf, .inr (.inr (.inr (.inr (.inl ⟨rfl, hu, rfl⟩))))⟩
  | uPush =>
    rcases M _ _ with e | ⟨hf, hu, e⟩ <;> rw [exec, execUPush, e] at h <;> cases h
    · exact .inl rfl
    · rcases pushCpW_cases s with e | ⟨w, n, hw, e⟩
      · exact .inl e
      · exact .inr ⟨hf, .inr (.inr (.inr (.inr (.inr ⟨rfl, hu, w, n, hw, e⟩))))⟩
  | _ => cases hi

theorem decodeCommand_agent (c : Word40) (i : Instr) (h : decodeCommand c = .ok i) : i.agent = .host := by
  unfold decodeCommand at h
  repeat' split at h
  all_goals cases h <;> rfl

theorem decodeMicro_agent (u : Word3) (i : Instr) (h : decodeMicro u = .ok i) : i.agent = .cp := by
  unfold decodeMicro at h
  repeat' split at h
  all_goals cases h <;> rfl

theorem cpState_cases (u : Word3) :
    u = 0#3 ∨ u = 1#3 ∨ u = 2#3 ∨ u = 3#3 ∨ u = 4#3 ∨ u = 5#3 ∨ u = 6#3 ∨ u = 7#3 := by
  revert u; decide

/-! What a step can do. -/

theorem step_halted {s : State} (h : s.faulted = true) : step s = .next s := by
  rw [step, if_pos h]

theorem step_turn {s : State} {t : Turn} {ts : List Turn} (hf : s.faulted = false) (hs : s.sched = t :: ts) :
    step s = takeTurn t { s with sched := ts } := by
  rw [step, if_neg (by simp [hf]), hs]

theorem step_coproc {s : State} {ts : List Turn} {i : Instr} (hf : s.faulted = false)
    (hs : s.sched = .coproc :: ts) (hd : decodeMicro s.cpState = .ok i) : step s = exec i { s with sched := ts } := by
  rw [step_turn hf hs]; simp only [takeTurn, coprocTurn, hd]

/-- The co-processor's turn at U0 with no trigger is a hold. -/
theorem step_coproc_idle {s : State} {ts : List Turn} (hf : s.faulted = false) (hs : s.sched = .coproc :: ts)
    (hc : s.cpState = 0#3) (hq : s.txq = []) : step s = .next { s with sched := ts } := by
  rw [step_coproc (i := .uWaitTrig) hf hs (by rw [hc]; rfl),
    exec_uWaitTrig_run { s with sched := ts } hf hc, takeTrigger_nil (s := { s with sched := ts }) hq]

/-- The Host's attempt at a completion outside `WaitWord` does nothing. -/
theorem step_complete_ready {s : State} {ts : List Turn} (hf : s.faulted = false) (hs : s.sched = .complete :: ts)
    (hp : s.hostPhase = .ready) : step s = .next { s with sched := ts } := by
  rw [step_turn hf hs, takeTurn, completeReadWord, if_pos]
  simp [hp]

/-- All a step can do: nothing, or one turn of one agent. -/
theorem step_cases (s t : State) (h : step s = .next t) :
    (s.faulted = true ∧ t = s) ∨ (s.faulted = false ∧ ((s.sched = [] ∧ t = s) ∨ ∃ u ts, s.sched = u :: ts ∧
      (t = { s with sched := ts } ∨
      (u = .issue ∧ ∃ c cs, s.cmds = c :: cs ∧
        (((∃ e, decodeCommand c = .error e) ∧ t = raiseFault .illegalCommand c { s with sched := ts, cmds := cs }) ∨
          ∃ i, decodeCommand c = .ok i ∧ exec i { s with sched := ts, cmds := cs } = .next t)) ∨
      (u = .complete ∧ s.hostPhase = .waitWord ∧ ∃ w rest, s.rxq = w :: rest ∧
        t = { s with sched := ts, rxq := rest, rdData := some w, hostPhase := .ready }) ∨
      (u = .coproc ∧ ∃ i, decodeMicro s.cpState = .ok i ∧ exec i { s with sched := ts } = .next t)))) := by
  rcases Bool.eq_false_or_eq_true s.faulted with hf | hf
  · rw [step_halted hf] at h; cases h; exact .inl ⟨hf, rfl⟩
  refine .inr ⟨hf, ?_⟩
  cases hs : s.sched with
  | nil => rw [step, if_neg (by simp [hf]), hs] at h; cases h; exact .inl ⟨rfl, rfl⟩
  | cons u ts =>
    rw [step_turn hf hs] at h
    refine .inr ⟨u, ts, rfl, ?_⟩
    cases u with
    | issue =>
      cases hc : s.cmds with
      | nil => simp only [takeTurn, hostIssue, hc] at h; cases h; exact .inl rfl
      | cons c cs =>
        simp only [takeTurn, hostIssue, hc] at h
        cases hd : decodeCommand c with
        | error e =>
          rw [hd] at h; cases h
          exact .inr (.inl ⟨rfl, c, cs, rfl, .inl ⟨⟨e, hd⟩, rfl⟩⟩)
        | ok i =>
          rw [hd] at h
          simp only at h
          split at h
          · cases h; exact .inl rfl
          · exact .inr (.inl ⟨rfl, c, cs, rfl, .inr ⟨i, hd, h⟩⟩)
    | complete =>
      simp only [takeTurn, completeReadWord] at h
      split at h
      · cases h; exact .inl rfl
      · rename_i hg
        simp only [hf, Bool.false_eq_true, false_or, not_not] at hg
        split at h
        · cases h; exact .inl rfl
        · rename_i w rest hw; cases h; exact .inr (.inr (.inl ⟨rfl, hg, w, rest, hw, rfl⟩))
    | coproc =>
      simp only [takeTurn, coprocTurn] at h
      split at h
      · rename_i i hi; exact .inr (.inr (.inr ⟨rfl, i, hi, h⟩))
      · cases h; exact .inl rfl
      · cases h

theorem run_next {s t : State} (n : Nat) (h : step s = .next t) :
    Host.Core.run core (n + 1) s = Host.Core.run core n t := by
  have h' : core.step s = .next t := h
  simp only [Host.Core.run, h']

end Sys2Proof.Machine
end

