-- ==== Sys2Proof/Tests/Slice0.lean ====
section
/-! SUPPORT. The model's own tests, each expected value from spec/95_test_vectors.md or from the rule its comment names, and one witness for the hypotheses of every statement that has some. -/

namespace Sys2Proof.Tests

open Sys2Proof Sys2Proof.Machine Host

/-! ## Well-formedness: each check refuses an ill-formed term -/

theorem test_wellFormed_command_of_host : WellFormed .host (.setAddress 0#32) = true := by decide
theorem test_wellFormed_refuses_micro_step_of_host : WellFormed .host .uHold = false := by decide
theorem test_wellFormed_refuses_command_of_cp : WellFormed .cp .readWord = false := by decide
theorem test_asm_greatest_literal : AsmLine.wellFormed (.setAddress 0xFFFFFFFF) = true := by decide
theorem test_asm_refuses_33_bit_literal : AsmLine.wellFormed (.setAddress 0x100000000) = false := by decide
theorem test_asm_refuses_33_bit_read_at : AsmLine.wellFormed (.readAt 0x100000000 1) = false := by decide
theorem test_asm_refuses_empty_burst : AsmLine.wellFormed (.readAt 0 0) = false := by decide
theorem test_asm_empty_burst_assembles_to_nothing : assemble (.readAt 0 0) = none := by decide

/-! ## Decoding: words written out from R102, R105 and R107 (vectors ENC-1 to ENC-13) -/

theorem test_decode_initPins : decodeCommand 0b0000000100000000000000000000000000000000#40 = .ok .initPins := by decide
theorem test_decode_initEngine_polled :
    decodeCommand 0b0000001000000000000000000000000000000000#40 = .ok (.initEngine 0#1) := by decide
theorem test_decode_initEngine_timed :
    decodeCommand 0b0000001000000000000000000000000000000001#40 = .ok (.initEngine 1#1) := by decide
theorem test_decode_setAddress :
    decodeCommand 0b0000001100010010001101000101011001111000#40 = .ok (.setAddress 0x12345678#32) := by decide
theorem test_decode_readWord : decodeCommand 0b0000010000000000000000000000000000000000#40 = .ok .readWord := by decide
theorem test_decode_uWaitTrig : decodeMicro 0b000#3 = .ok .uWaitTrig := by decide
theorem test_decode_uReAssert : decodeMicro 0b001#3 = .ok .uReAssert := by decide
theorem test_decode_uHold : decodeMicro 0b010#3 = .ok .uHold := by decide
theorem test_decode_uSample : decodeMicro 0b011#3 = .ok .uSample := by decide
theorem test_decode_uReDeassert : decodeMicro 0b100#3 = .ok .uReDeassert := by decide
theorem test_decode_uPush : decodeMicro 0b101#3 = .ok .uPush := by decide
theorem test_decode_micro_110_reserved : decodeMicro 0b110#3 = .error .reservedMicroStep := by decide
theorem test_decode_micro_111_off : decodeMicro 0b111#3 = .error .coprocessorOff := by decide
theorem test_decode_illegal_operands :
    [0x0100000001#40, 0x0200000002#40, 0x0280000001#40, 0x0400010000#40].map decodeCommand =
      List.replicate 4 (.error .reservedOperand) := by decide
theorem test_decode_illegal_opcodes :
    [0x0000000000#40, 0x0500000000#40, 0xFFFFFFFFFF#40].map decodeCommand =
      List.replicate 3 (.error .reservedOpcode) := by decide
theorem test_table_rows_of_commands :
    [0x0100000000, 0x0200000000, 0x0300000000, 0x0400000000].map (decodeTableWord 40) =
      [some .initPins, some (.initEngine 0#1), some (.setAddress 0#32), some .readWord] := by decide
theorem test_table_rows_of_micro_steps :
    [0, 1, 2, 3, 4, 5, 6, 7].map (decodeTableWord 8) =
      [some .uWaitTrig, some .uReAssert, some .uHold, some .uSample, some .uReDeassert, some .uPush, none, none] := by
  decide

/-! ## States -/

/-- The state a next state holds. -/
def after (o : Outcome State Fault Refusal) : Option State :=
  match o with
  | .next s => some s
  | .fault _ => none
  | .refused _ => none

/-- The four control lines outputs, AD and RST inputs. -/
def idleDir : Lines := ⟨0#16, true, true, true, true, false⟩

/-- Every control line at 1. -/
def idleOut : Lines := ⟨0#16, true, true, true, true, true⟩

/-- After INIT_PINS. -/
def pinsDone : State :=
  { State.reset with pinsReady := true, dir := idleDir, out := idleOut, latchH := 0#16, latchL := 0#16, rdcnt := 0 }

/-- After INIT_ENGINE POLLED. -/
def polled : State := { pinsDone with engine := .polled }

/-- After INIT_ENGINE TIMED. -/
def timed : State := { pinsDone with engine := .timed, reOwner := .cp, cpState := 0#3 }

/-- A Polled read can be issued; the environment drives 0x8001. -/
def polledAt : State := { polled with addrSet := true, cart := [0x8001#16] }

/-- A Timed read can be issued; the environment drives 0xBEEF. -/
def timedAt : State := { timed with addrSet := true, cart := [0xBEEF#16] }

/-- A Timed read whose co-processor is at U1 to U5 (vectors of the Timed table). -/
def reading (u : Word3) : State :=
  { timedAt with
    hostPhase := .waitWord, cpState := u, cpW := some 0xBEEF#16
    out := { idleOut with re := u == 1#3 || u == 5#3 } }

/-- A Timed read just issued. -/
def issued : State := { timedAt with hostPhase := .waitWord, txq := [.trig] }

/-- A Timed read whose word waits. -/
def delivered : State := { timedAt with hostPhase := .waitWord, rxq := [0xA55A#16] }

/-- The halted state at the end of program P4. -/
def halted : State :=
  { pinsDone with addrSet := true, faulted := true, fcode := 5#4, fcmd := some 0x0400000000#40, latchH := 0x1000#16 }

/-- The turns of one Timed read, its issue, U0 to U5 and its completion. -/
def readTurns : List Turn :=
  [.issue, .coproc, .coproc, .coproc, .coproc, .coproc, .coproc, .complete]

/-! ## Instructions -/

/-- IP-1: the trace but for RST's parameters, and the flag. -/
theorem test_initPins :
    (after (exec .initPins State.reset)).map (fun t => (t.pinsReady, t.dir.ad, t.trace.take 2, t.trace.length)) =
      some (true, 0#16, [⟨.host, .cfg (.ctrl .ctrl4 true) .output⟩, ⟨.host, .dir .ad .input⟩], 3) := by decide

/-- IP-2. -/
theorem test_initPins_twice :
    (after (exec .initPins pinsDone)).map (fun t => (t.faulted, t.fcode, t.fcmd, t.trace)) =
      some (true, 4#4, some 0x0100000000#40, []) := by decide

/-- The example of R160. -/
theorem test_initEngine_timed :
    (after (exec (.initEngine 1#1) pinsDone)).map (fun t => (t.engine, t.reOwner, t.cpState, t.trace, t.rdcnt)) =
      some (.timed, .cp, 0#3, [⟨.cp, .lvl (.ctrl (.only .re) true)⟩], 0) := by decide

/-- F-6. -/
theorem test_initEngine_twice :
    (after (exec (.initEngine 1#1) polled)).map (fun t => (t.faulted, t.fcode, t.fcmd, t.engine)) =
      some (true, 6#4, some 0x0200000001#40, .polled) := by decide

/-- SA-4. -/
theorem test_setAddress :
    (after (exec (.setAddress 0x12345678#32) polled)).map
        (fun t => ([t.latchH, t.latchL, t.dir.ad, t.out.ad], t.rdcnt, t.trace)) =
      some ([0x1234#16, 0x5678#16, 0#16, 0x5678#16], 0,
        [⟨.host, .cfg (.ad 0x0000#16) .output⟩, ⟨.host, .lvl (.ctrl .ctrl4 true)⟩, ⟨.host, .lvl (.ad 0x1234#16)⟩,
          ⟨.host, .lvl (.ctrl (.only .aleh) false)⟩, ⟨.host, .lvl (.ctrl (.only .aleh) true)⟩,
          ⟨.host, .lvl (.ad 0x5678#16)⟩, ⟨.host, .lvl (.ctrl (.only .alel) false)⟩,
          ⟨.host, .lvl (.ctrl (.only .alel) true)⟩, ⟨.host, .dir .ad .input⟩]) := by decide

/-- SA-9. -/
theorem test_setAddress_timed :
    (after (exec (.setAddress 0x12345678#32) timed)).map (fun t => (t.trace.drop 1).head?) =
      some (some ⟨.host, .lvl (.ctrl .ctrl3 true)⟩) := by decide

/-- RP-5. -/
theorem test_readWord_polled :
    (after (exec .readWord polledAt)).map (fun t => (t.rdData, t.rdcnt, t.trace)) =
      some (some 0x8001#16, 1,
        [⟨.host, .lvl (.ctrl (.only .re) false)⟩, ⟨.host, .smp 0x8001#16⟩, ⟨.host, .lvl (.ctrl (.only .re) true)⟩]) := by
  decide

/-- F-1: READ_WORD at reset raises PINS_NOT_INITIALIZED, not ENGINE_NOT_INITIALIZED. -/
theorem test_readWord_at_reset :
    (after (exec .readWord State.reset)).map (fun t => (t.fcode, t.fcmd)) = some (3#4, some 0x0400000000#40) := by decide

/-- Step 1 of the Timed table is a trigger and no event; step 2 consumes it. -/
theorem test_uWaitTrig :
    (after (exec .uWaitTrig issued)).map (fun t => (t.txq, t.cpState, t.trace)) = some ([], 1#3, []) := by decide

/-- Step 3. -/
theorem test_uReAssert :
    (after (exec .uReAssert (reading 1#3))).map (fun t => (t.out.re, t.cpState, t.trace)) =
      some (false, 2#3, [⟨.cp, .lvl (.ctrl (.only .re) false)⟩]) := by decide

/-- Step 4. -/
theorem test_uHold :
    (after (exec .uHold (reading 2#3))).map (fun t => (t.out.re, t.cpState, t.trace)) = some (false, 3#3, []) := by decide

/-- Step 5. -/
theorem test_uSample :
    (after (exec .uSample { reading 3#3 with cpW := none })).map (fun t => (t.cpW, t.cpState, t.trace, t.rdcnt)) =
      some (some 0xBEEF#16, 4#3, [⟨.cp, .smp 0xBEEF#16⟩], 0) := by decide

/-- Step 6. -/
theorem test_uReDeassert :
    (after (exec .uReDeassert (reading 4#3))).map (fun t => (t.out.re, t.cpState, t.rdcnt)) = some (true, 5#3, 1) := by
  decide

/-- Step 7: `CP_W` keeps the word. -/
theorem test_uPush :
    after (exec .uPush (reading 5#3)) = some { reading 5#3 with rxq := [0xBEEF#16], cpState := 0#3 } :=
  congrArg (after ∘ Outcome.next) (pushCpW_some (s := reading 5#3) (rxFull_nil rfl) rfl)

/-- U5 placed straight after reset, where `CP_W = ⊥`: it pushes a free value and goes to U0 (R188; log entry 10). -/
theorem test_uPush_without_word :
    step (State.reset.withFetchWord 8 5) =
      .next { State.reset with cpState := 0#3, rxq := [Config.freeCpW 0], draws := 1 } :=
  congrArg Outcome.next
    (pushCpW_none (s := { State.reset with cpState := 5#3 }) (rxFull_nil rfl) rfl)

/-- The example of R182. -/
theorem test_completeReadWord :
    (fun t : State => (t.rdData, t.rxq, t.hostPhase)) (completeReadWord delivered) = (some 0xA55A#16, [], .ready) := by
  decide

/-! ## Steps -/

/-- F-7: an illegal word is refused before the pins are checked. -/
theorem test_step_illegal_word :
    (after (step (State.reset.withFetchWord 40 0x0400000001))).map (fun t => (t.faulted, t.fcode, t.fcmd, t.cmds)) =
      some (true, 1#4, some 0x0400000001#40, []) := by decide

/-- F-9: a halted block takes no step. -/
theorem test_step_halted :
    (after (step (halted.withFetchWord 40 0x0100000000))).map (fun t => (t.fcode, t.fcmd, t.cmds)) =
      some (5#4, some 0x0400000000#40, [0x0100000000#40]) := by decide

/-- F-10: a second command before the read's completion. -/
theorem test_step_early_command :
    (after (step (issued.withFetchWord 40 0x0310000000))).map (fun t => (t.fcode, t.fcmd, t.txq)) =
      some (2#4, some 0x0310000000#40, [.trig]) := by decide

/-- RT-1: the Host's completion attempted with RXQ empty changes nothing. -/
theorem test_step_completion_holds :
    (after (step { issued with sched := [.complete] })).map (fun t => (t.hostPhase, t.txq, t.rdData)) =
      some (.waitWord, [.trig], none) := by decide

/-- RT-4: with the Polled engine the co-processor stays OFF. -/
theorem test_step_coproc_off :
    (after (step { polled with sched := [.coproc] })).map (fun t => (t.cpState, t.trace)) = some (7#3, []) := by decide

/-! ## Views -/

/-- STATUS at the end of program P4. -/
theorem test_status : halted.status = 0x00001D69#32 := by decide

/-- Reading `RD_DATA` while it is `⊥` gives no word (R30). -/
theorem test_read_no_word : State.reset.readResult = none := by decide

/-- SER-1 to SER-5. -/
theorem test_ser :
    (ser 0x1234#16, ser 0x00FF#16, ser 0xFF00#16, serWords [0xABCD#16, 0xEF01#16], serWords []) =
      ([0x12#8, 0x34#8], [0x00#8, 0xFF#8], [0xFF#8, 0x00#8], [0xAB#8, 0xCD#8, 0xEF#8, 0x01#8], []) := by decide

/-- SER-4 as a 32-bit value. -/
theorem test_be_word32 : beWord32 0xABCD#16 0xEF01#16 = 0xABCDEF01#32 := by decide

/-- A four-byte image at 0x10000000: its words in order, then the mirror; bit 0 of the address ignored (R133). -/
theorem test_reference_cartridge :
    (RefCartridge.burst ⟨[0x00#8, 0x01#8, 0x02#8, 0x03#8], 4, 0x10000000#32⟩ 0x10000001#32 3) =
      [0x0001#16, 0x0203#16, 0x0001#16] := by decide

/-! ## Witnesses: a state and operands that meet a statement's hypotheses -/

theorem inv_pinsDone : Machine.Inv pinsDone := by constructor <;> decide
theorem inv_polledAt : Machine.Inv polledAt := by constructor <;> decide
theorem inv_timedAt : Machine.Inv timedAt := by constructor <;> decide
theorem inv_issued : Machine.Inv issued := by constructor <;> decide
theorem inv_delivered : Machine.Inv delivered := by constructor <;> decide
theorem inv_halted : Machine.Inv halted := by constructor <;> decide
theorem inv_reading :
    Machine.Inv (reading 1#3) ∧ Machine.Inv (reading 2#3) ∧ Machine.Inv (reading 3#3) ∧ Machine.Inv (reading 4#3) ∧
      Machine.Inv (reading 5#3) := by
  refine ⟨?_, ?_, ?_, ?_, ?_⟩ <;> constructor <;> decide

/-- The fields of `Inv` do not read the model's own lists. -/
theorem inv_withProgram {s : State} (h : Machine.Inv s) (cs : List Word40) (ts : List Turn) :
    Machine.Inv { s with cmds := cs, sched := ts } :=
  ⟨h.1, h.2, h.3, h.4, h.5, h.6, h.7, h.8, h.9, h.10, h.11⟩

theorem witness_DecodedWordIsItsEncoding :
    decode (.command 0x03FFFFFFFF#40) = .ok (.setAddress 0xFFFFFFFF#32) ∧ decode (.micro 5#3) = .ok .uPush := by decide

/-- The greatest reserved word below an opcode, the least and the greatest above, and the first and last reserved bit. -/
theorem witness_ReservedWordsFault :
    (decodeCommand 0x00FFFFFFFF#40 = .error .reservedOpcode ∧ decodeCommand 0x0500000000#40 = .error .reservedOpcode ∧
      decodeCommand 0xFFFFFFFFFF#40 = .error .reservedOpcode ∧ decodeCommand 0x0180000000#40 = .error .reservedOperand ∧
      decodeCommand 0x0400000001#40 = .error .reservedOperand ∧ decodeCommand 0x0200000002#40 = .error .reservedOperand ∧
      decodeCommand 0x0280000000#40 = .error .reservedOperand) ∧
    (State.reset.withProgram [0#40] [.issue]).faulted = false ∧
    (State.reset.withProgram [0#40] [.issue]).sched = [.issue] ∧
    (State.reset.withProgram [0#40] [.issue]).cmds = [0#40] := by decide

/-- A state whose trigger queue is full. -/
def fullTxq : State := { timedAt with txq := List.replicate Config.txDepth .trig }

/-- A state whose handoff queue is full. -/
def fullRxq : State := { reading 5#3 with rxq := List.replicate Config.rxDepth 0#16 }

theorem fullTxq_full : Config.txDepth ≤ fullTxq.txq.length := by simp [fullTxq]
theorem fullRxq_full : Config.rxDepth ≤ fullRxq.rxq.length := by simp [fullRxq]
theorem timedAt_room : timedAt.txq.length < Config.txDepth := Nat.succ_pos _
theorem reading_room : (reading 5#3).rxq.length < Config.rxDepth := Nat.succ_pos _

/-- Both clauses: a command that runs, and one that holds. -/
theorem witness_IssueTurnRunsDecodedCommand :
    (timedAt.withProgram [0x0300000000#40] [.issue]).faulted = false ∧
    decodeCommand 0x0300000000#40 = .ok (.setAddress 0#32) ∧
    holds (.setAddress 0#32) timedAt = false ∧ decodeCommand 0x0400000000#40 = .ok .readWord ∧
    holds .readWord (fullTxq.withProgram [0x0400000000#40] [.issue]) = true := by
  refine ⟨by decide, by decide, by decide, by decide, ?_⟩
  have h : (fullTxq.withProgram [0x0400000000#40] [.issue]).txFull = true := decide_eq_true fullTxq_full
  rw [holds, h]; decide

/-- A micro-step, OFF, and the reserved value. -/
theorem witness_CoprocTurnRunsMicroStep :
    decodeMicro timed.cpState = .ok .uWaitTrig ∧ polled.cpState = 0b111#3 ∧
    ({ timed with cpState := 0b110#3, sched := [.coproc] } : State).cpState = 0b110#3 := by decide

theorem witness_CompleteTurnCompletes :
    ({ delivered with sched := [.complete] } : State).faulted = false ∧
      ({ delivered with sched := [.complete] } : State).sched = [.complete] := by decide

theorem witness_HaltedBlockTakesNoStep : halted.faulted = true := by decide
theorem witness_HaltedStateIsFinal : halted.faulted = true := by decide

/-- A state for each clause: waiting, before INIT_PINS, with no engine, with an engine and no address. -/
theorem witness_CommandFaultsInOrder :
    (issued.faulted = false ∧ issued.hostPhase = .waitWord) ∧
    (State.reset.faulted = false ∧ State.reset.hostPhase = .ready ∧ State.reset.pinsReady = false) ∧
    (pinsDone.faulted = false ∧ pinsDone.hostPhase = .ready ∧ pinsDone.pinsReady = true ∧ pinsDone.engine = .none) ∧
    (polled.faulted = false ∧ polled.hostPhase = .ready ∧ polled.pinsReady = true ∧ polled.engine ≠ .none ∧
      polled.addrSet = false) := by decide

theorem witness_MicroStepsRaiseNoFault :
    Machine.Inv (reading 5#3) ∧ Instr.uPush.agent = .cp ∧ (reading 5#3).faulted = false :=
  ⟨inv_reading.2.2.2.2, rfl, rfl⟩

/-- A non-owner and RE; a group without RE; the owner and RE. -/
theorem witness_DriveOwnership :
    ((GroupVal.ctrl .ctrl4 true).group.hasRe = true ∧ Agent.host ≠ timed.reOwner) ∧
    (GroupVal.ctrl .ctrl3 true).group.hasRe = false ∧ Agent.host = polled.reOwner := by decide

/-- RE inactive with the first and the last AD line an output and the others inputs. -/
def partlyOut : State := { polled with dir := { idleDir with ad := 0x8001#16 } }

/-- RE asserted with every AD line an output, which no run reaches (R246). -/
def contending : State := { reading 3#3 with dir := { idleDir with ad := 0xFFFF#16 }, cart := [0xBEEF#16] }

/-- R128, R246: in contention the sample is a draw, neither `OUT` nor the listed word. -/
theorem test_contention_is_a_draw : contending.sampleWord = Config.freeAd 0 :=
  adLevels_contention (by decide) (by decide) _

/-- R128: one AD line that is an output is contention on every AD line. -/
theorem test_contention_on_one_line :
    ({ contending with dir := { idleDir with ad := 0x0001#16 } } : State).busval 5 = Config.freeAd 5 :=
  adLevels_contention (by decide) (by decide) _

/-- RE inactive, lines 0 and 15 outputs and line 1 an input; a read strobe; contention on all lines. -/
theorem witness_SampleReadsTheLines :
    (partlyOut.ctrlLevel .re partlyOut.draws = true ∧ partlyOut.dir.ad.getLsbD 0 = true ∧
      partlyOut.dir.ad.getLsbD 15 = true ∧ partlyOut.dir.ad.getLsbD 1 = false) ∧
    ((reading 3#3).ctrlLevel .re (reading 3#3).draws = false ∧ (reading 3#3).dir.ad = 0#16) ∧
    (contending.ctrlLevel .re contending.draws = false ∧ contending.dir.ad ≠ 0#16) ∧ contending.dir.re = true := by
  decide

/-- The bus driven, with RE inactive and with RE asserted. -/
theorem witness_PulseEndsReact :
    StrobesDriven { polled with out := { idleOut with aleh := false } } ∧
    (StrobesDriven { polled with dir := { idleDir with ad := 0xFFFF#16 } } ∧
      ({ polled with dir := { idleDir with ad := 0xFFFF#16 } } : State).dir.ad = 0xFFFF#16 ∧ polled.out.re = true) ∧
    (StrobesDriven contending ∧ contending.dir.ad = 0xFFFF#16 ∧ contending.out.re = false) := by decide

theorem witness_PrimitivesLogOneEvent :
    drive .host 0#40 (.ad 0#16) polled = .go (driveLines .host (.ad 0#16) polled) := drive_go (.inl rfl)

/-- From reset, and from a state whose lines are driven inactive. -/
theorem witness_InitPinsCompletes :
    (Accepting State.reset ∧ State.reset.pinsReady = false) ∧
    (Accepting { pinsDone with pinsReady := false } ∧ StrobesDriven { pinsDone with pinsReady := false } ∧
      idleOut.aleh = true ∧ idleOut.alel = true ∧ idleOut.re = true) := by decide

theorem witness_InitEngineCompletes :
    Accepting pinsDone ∧ pinsDone.pinsReady = true ∧ pinsDone.engine = .none ∧ StrobesDriven pinsDone ∧
      pinsDone.out.re = true := by decide

/-- With no engine and with the Polled engine. -/
theorem witness_SetAddressCompletes :
    (Accepting pinsDone ∧ pinsDone.pinsReady = true ∧ StrobesDriven pinsDone ∧ pinsDone.engine ≠ .timed ∧
      pinsDone.reOwner = .host) ∧
    (Accepting polled ∧ polled.pinsReady = true ∧ StrobesDriven polled ∧ polled.engine ≠ .timed ∧
      polled.reOwner = .host) := by decide

/-- With RE inactive. -/
theorem witness_SetAddressTimedLeavesRe :
    Accepting timed ∧ timed.pinsReady = true ∧ StrobesDriven timed ∧ timed.engine = .timed ∧ timed.out.re = true := by
  decide

theorem witness_LatchesHoldTheAddress : Machine.Inv timedAt ∧ Accepting timedAt ∧ timedAt.pinsReady = true :=
  ⟨inv_timedAt, by decide⟩

theorem witness_SetAddressReturnsNothing :
    exec (.setAddress 0#32) timed = .next (setAddressEffect 0#32 timed).final := by
  rw [exec, execSetAddress]; exact command_pass rfl rfl

theorem witness_PolledReadCompletes :
    Accepting polledAt ∧ polledAt.pinsReady = true ∧ polledAt.engine = .polled ∧ polledAt.addrSet = true ∧
      polledAt.reOwner = .host ∧ StrobesDriven polledAt ∧ polledAt.dir.ad = 0#16 := by decide

/-- Room in TXQ, and a full TXQ. -/
theorem witness_TimedReadIssues :
    (Accepting timedAt ∧ timedAt.pinsReady = true ∧ timedAt.engine = .timed ∧ timedAt.addrSet = true ∧
      timedAt.txq.length < Config.txDepth) ∧
    (Accepting fullTxq ∧ fullTxq.pinsReady = true ∧ fullTxq.engine = .timed ∧ fullTxq.addrSet = true ∧
      Config.txDepth ≤ fullTxq.txq.length) :=
  ⟨⟨by decide, rfl, rfl, rfl, timedAt_room⟩, ⟨⟨rfl, rfl⟩, rfl, rfl, rfl, fullTxq_full⟩⟩

theorem witness_TimedReadCompletion :
    (delivered.faulted = false ∧ delivered.hostPhase = .waitWord ∧ delivered.rxq = [0xA55A#16]) ∧
    (issued.faulted = false ∧ issued.hostPhase = .waitWord ∧ issued.rxq = []) ∧
    (timedAt.faulted = false ∧ timedAt.hostPhase = .ready) := by decide

theorem witness_WaitTrigConsumesTrigger :
    (issued.faulted = false ∧ issued.cpState = 0b000#3 ∧ issued.txq = [.trig]) ∧
    (timed.faulted = false ∧ timed.cpState = 0b000#3 ∧ timed.txq = []) := by decide

theorem witness_ReadEnableStrobe :
    ((reading 1#3).faulted = false ∧ (reading 1#3).reOwner = .cp ∧ StrobesDriven (reading 1#3) ∧
      (reading 1#3).cpState = 0b001#3) ∧
    ((reading 4#3).faulted = false ∧ (reading 4#3).reOwner = .cp ∧ StrobesDriven (reading 4#3) ∧
      (reading 4#3).cpState = 0b100#3 ∧ (reading 4#3).out.re = false) := by decide

theorem witness_HoldChangesNothing : (reading 2#3).faulted = false ∧ (reading 2#3).cpState = 0b010#3 := by decide

theorem witness_SampleStepHoldsTheWord :
    (reading 3#3).faulted = false ∧ (reading 3#3).cpState = 0b011#3 ∧ StrobesDriven (reading 3#3) ∧
      (reading 3#3).out.re = false ∧ (reading 3#3).dir.ad = 0#16 := by decide

/-- Room and a word, a full RXQ, room and no word. -/
theorem witness_PushDeliversTheWord :
    ((reading 5#3).faulted = false ∧ (reading 5#3).cpState = 0b101#3 ∧
      (reading 5#3).rxq.length < Config.rxDepth ∧ (reading 5#3).cpW = some 0xBEEF#16) ∧
    (fullRxq.faulted = false ∧ fullRxq.cpState = 0b101#3 ∧ Config.rxDepth ≤ fullRxq.rxq.length) ∧
    (({ reading 5#3 with cpW := none } : State).rxq.length < Config.rxDepth ∧
      ({ reading 5#3 with cpW := none } : State).cpW = none) :=
  ⟨⟨rfl, rfl, reading_room, rfl⟩, ⟨rfl, rfl, fullRxq_full⟩, ⟨reading_room, rfl⟩⟩

theorem witness_MicroProgramIsOneLoop :
    exec .uHold (reading 2#3) = .next { reading 2#3 with cpState := 3#3 } ∧ Instr.uHold.agent = .cp ∧
    exec .uPush (reading 5#3) = .next { reading 5#3 with rxq := [0xBEEF#16], cpState := 0#3 } ∧
    exec (.initEngine 0#1) pinsDone = .next polled ∧ (Instr.initEngine 0#1).agent = .host :=
  ⟨rfl, rfl, congrArg Outcome.next (pushCpW_some (s := reading 5#3) (rxFull_nil rfl) rfl), rfl, rfl⟩

/-- The first clause, at U2, which never holds. -/
theorem witness_MicroProgramIsOneLoop_runs :
    (reading 2#3).faulted = false ∧ decodeMicro (reading 2#3).cpState = .ok .uHold ∧ (reading 2#3).reOwner = .cp ∧
      holds .uHold (reading 2#3) = false := by decide

theorem witness_CoprocNeverChangesDirections :
    exec .uHold (reading 2#3) = .next { reading 2#3 with cpState := 3#3 } ∧ Instr.uHold.agent = .cp ∧
      (reading 2#3).reOwner = .cp := ⟨rfl, rfl, rfl⟩

/-- `timedAt` with a whole Timed read ahead. -/
def timedRun : State := { timedAt with cmds := [0x0400000000#40], sched := readTurns }

theorem witness_TimedReadRuns :
    Machine.Inv timedRun ∧ Accepting timedRun ∧ timedRun.engine = .timed ∧ timedRun.pinsReady = true ∧
      timedRun.addrSet = true ∧ timedRun.cmds = [0x0400000000#40] ∧ timedRun.sched = readTurns :=
  ⟨inv_withProgram inv_timedAt _ _, by decide, rfl, rfl, rfl, rfl, rfl⟩

/-- `polledAt` with the environment's word of `timedRun`. -/
def polledRun : State := { polledAt with cart := [0xBEEF#16] }

theorem witness_VariantsReturnTheSameWord :
    polledRun.cart ≠ [] ∧ Machine.Inv polledRun ∧ Accepting polledRun ∧ polledRun.engine = .polled ∧
      polledRun.addrSet = true ∧ Machine.Inv timedRun ∧ Accepting timedRun ∧ timedRun.engine = .timed ∧
      timedRun.addrSet = true ∧ polledRun.latchH = timedRun.latchH ∧ polledRun.latchL = timedRun.latchL ∧
      polledRun.rdcnt = timedRun.rdcnt ∧ polledRun.cart = timedRun.cart ∧ timedRun.cmds = [0x0400000000#40] ∧
      timedRun.sched = readTurns :=
  ⟨by decide, by constructor <;> decide, by decide, rfl, rfl, inv_withProgram inv_timedAt _ _, by decide, rfl, rfl,
    rfl, rfl, rfl, rfl, rfl, rfl⟩

/-- Six turns of the co-processor among two early attempts, then the completion. -/
def fairTurns : List Turn := [.complete, .coproc, .coproc, .complete, .coproc, .coproc, .coproc, .coproc]

theorem witness_FairScheduleCompletesRead :
    Machine.Inv { issued with sched := fairTurns ++ [.complete] } ∧ issued.faulted = false ∧
      issued.hostPhase = .waitWord ∧ Turn.issue ∉ fairTurns ∧ 6 ≤ fairTurns.count .coproc :=
  ⟨inv_withProgram inv_issued _ _, by decide⟩

theorem witness_UnscheduledCoprocHangsRead :
    issued.faulted = false ∧ issued.hostPhase = .waitWord ∧ issued.rxq = [] ∧
      Turn.issue ∉ [Turn.complete, .complete] ∧ Turn.coproc ∉ [Turn.complete, .complete] := by decide

/-- One step from a state with the invariant that changes something: the completion of a read. -/
def completing : State := { delivered with sched := [.complete] }

theorem inv_completing : Machine.Inv completing := inv_withProgram inv_delivered _ _

theorem step_completing :
    step completing =
      .next { delivered with sched := [], rxq := [], rdData := some 0xA55A#16, hostPhase := .ready } := rfl

theorem witness_StepKeepsInvariant : Machine.Inv completing ∧ ∃ t, step completing = .next t :=
  ⟨inv_completing, _, step_completing⟩

theorem witness_EveryStepIsTaken : Machine.Inv completing := inv_completing
theorem witness_NoPushEverHolds : Machine.Inv issued ∧ Machine.Inv delivered := ⟨inv_issued, inv_delivered⟩

theorem witness_CoprocIdlesWhileHostReady :
    Machine.Inv { timedAt with sched := [.coproc] } ∧ Accepting { timedAt with sched := [.coproc] } ∧
      Machine.Inv { polledAt with sched := [.coproc] } :=
  ⟨inv_withProgram inv_timedAt _ _, by decide, inv_withProgram inv_polledAt _ _⟩

/-- A step that makes an event: U1, from a state with the invariant, no event of which asserts WE. -/
def strobing : State := { reading 1#3 with sched := [.coproc] }

theorem step_strobing : step strobing = .next (strobeRe false 2#3 { strobing with sched := [] }) := rfl

theorem inv_strobing : Machine.Inv strobing := inv_withProgram inv_reading.1 _ _

theorem witness_TraceIsAppendOnly : ∃ t, step strobing = .next t := ⟨_, step_strobing⟩

theorem witness_NoContention : Machine.Inv strobing ∧ ∃ t, step strobing = .next t :=
  ⟨inv_strobing, _, step_strobing⟩

theorem witness_WriteEnableNeverAsserted :
    (∃ t, step strobing = .next t) ∧ ∀ e ∈ strobing.trace, e.sets .we false = false := ⟨⟨_, step_strobing⟩, by decide⟩

/-- With the co-processor the owner of RE, and with the Host. -/
theorem witness_ReadEnableIsExclusive :
    (Machine.Inv strobing ∧ (∃ t, step strobing = .next t) ∧ strobing.reOwner = .cp) ∧
    (Machine.Inv { polledAt with sched := [.coproc] } ∧
      step { polledAt with sched := [.coproc] } = .next { polledAt with sched := [] } ∧ polledAt.reOwner = .host) :=
  ⟨⟨inv_strobing, ⟨_, step_strobing⟩, rfl⟩, ⟨inv_withProgram inv_polledAt _ _, rfl, rfl⟩⟩

theorem witness_InitialisationIsPermanent :
    (∃ t, step completing = .next t) ∧ completing.pinsReady = true ∧ completing.addrSet = true ∧
      completing.engine ≠ .none ∧ completing.reOwner = .cp ∧ step halted = .next halted ∧ halted.faulted = true :=
  ⟨⟨_, step_completing⟩, rfl, rfl, by decide, rfl, rfl, rfl⟩

/-- `RD_DATA` changes in a completion, and in a Polled read's issue. -/
theorem witness_OnlyReadsWriteRdData :
    (∃ t, step completing = .next t ∧ t.rdData ≠ completing.rdData) ∧
    ∃ t, exec .readWord polledAt = .next t ∧ t.rdData ≠ polledAt.rdData :=
  ⟨⟨_, step_completing, by decide⟩, ⟨(readPolled polledAt).final, rfl, by decide⟩⟩

theorem witness_QueuesAreFifo :
    exec .uWaitTrig issued = .next { issued with txq := [], cpState := 1#3 } ∧
      exec .uPush (reading 5#3) = .next { reading 5#3 with rxq := [0xBEEF#16], cpState := 0#3 } :=
  ⟨rfl, congrArg Outcome.next (pushCpW_some (s := reading 5#3) (rxFull_nil rfl) rfl)⟩

/-- The last address of the image, where the next word mirrors, and the last image that does not wrap past `2^32`. -/
theorem witness_ReferenceCartridgeBurst :
    RefCartridge.wellFormed ⟨[0x00#8, 0x01#8], 2, 0#32⟩ = true ∧ (0xFFFFFFFE#32).toNat % 2 = 0 ∧
      (0xFFFFFFFC#32 - 0#32).toNat + 2 * 0 + 2 < 2 ^ 32 := by decide

/-- The shortest header that holds both fields. -/
theorem witness_HeaderAndChunkAddresses : 26 ≤ (List.replicate 26 0x4142#16).length := by decide

theorem witness_ReadAtExpansion : 2 ^ 32 - 1 < 2 ^ 32 ∧ (2 : Nat) ^ 32 ≤ 2 ^ 32 := by decide

end Sys2Proof.Tests
end

/-! Serialization (20_memory.md R74, R75): what `serWords` gives for a list of words, by induction on the list. -/
namespace Sys2Proof.Machine

theorem highByte_append_lowByte (w : Word16) : w.extractLsb' 8 8 ++ w.extractLsb' 0 8 = w := by
  rw [BitVec.extractLsb'_append_extractLsb'_eq_extractLsb' (by rfl)]
  exact BitVec.extractLsb'_eq_self

/-- The two bytes of `SER(w)` determine `w`. -/
theorem ser_injective : Function.Injective ser := by
  intro w v h
  obtain ⟨hhigh, hlow⟩ : w.extractLsb' 8 8 = v.extractLsb' 8 8 ∧ w.extractLsb' 0 8 = v.extractLsb' 0 8 := by
    simpa [ser] using h
  rw [← highByte_append_lowByte w, ← highByte_append_lowByte v, hhigh, hlow]

@[simp] theorem serWords_nil : serWords [] = [] := rfl

@[simp] theorem serWords_cons (w : Word16) (ws : List Word16) :
    serWords (w :: ws) = w.extractLsb' 8 8 :: w.extractLsb' 0 8 :: serWords ws := rfl

@[simp] theorem serWords_append (ws vs : List Word16) : serWords (ws ++ vs) = serWords ws ++ serWords vs := by
  induction ws with
  | nil => rfl
  | cons w ws ih => simp [ih]

@[simp] theorem length_serWords (ws : List Word16) : (serWords ws).length = 2 * ws.length := by
  induction ws with
  | nil => rfl
  | cons w ws ih => simp only [serWords_cons, List.length_cons, ih]; omega

theorem serWords_getElem?_bytes (ws : List Word16) (i : Nat) (h : i < ws.length) :
    (serWords ws)[2 * i]? = some (ws[i].extractLsb' 8 8) ∧
      (serWords ws)[2 * i + 1]? = some (ws[i].extractLsb' 0 8) := by
  induction ws generalizing i with
  | nil => cases h
  | cons w ws ih =>
    cases i with
    | zero => exact ⟨rfl, rfl⟩
    | succ i => exact ih i (Nat.lt_of_succ_lt_succ h)

/-- A word gives exactly two bytes, so equal serializations agree word by word. -/
theorem serWords_injective : Function.Injective serWords := by
  intro ws
  induction ws with
  | nil =>
    rintro (_ | ⟨v, vs⟩) h
    · rfl
    · cases h
  | cons w ws ih =>
    rintro (_ | ⟨v, vs⟩) h
    · cases h
    · obtain ⟨hword, hrest⟩ : ser w = ser v ∧ serWords ws = serWords vs := List.append_inj h rfl
      rw [ser_injective hword, ih hrest]

/-- Settles O54: the bytes of one word by definition, the clauses about a sequence by induction on the words. -/
theorem serializationKeepsOrder : Obligations.SerializationKeepsOrder :=
  ⟨fun _ => rfl, fun ws =>
    ⟨serWords_append ws, length_serWords ws, serWords_getElem?_bytes ws, fun _ h => serWords_injective h⟩⟩

end Sys2Proof.Machine

/-! The command words (30_encoding.md R100 to R106): each command has exactly one word, so commands are counted in place
of words. -/
namespace Sys2Proof.Machine

theorem decodeCommand_eq_ok_iff {c : Word40} {i : Instr} : decodeCommand c = .ok i ↔ encode i = .command c := by
  constructor
  · intro h
    rw [← mkCommand_fields c]
    unfold decodeCommand at h
    split at h
    case isTrue hopcode =>
      split at h <;> cases h
      case isTrue hzero => rw [hopcode, hzero]; rfl
    split at h
    case isTrue hopcode =>
      split at h <;> cases h
      case isTrue hzero =>
        have hoperand : 0#31 ++ (operandField c).extractLsb' 0 1 = operandField c := by
          rw [← hzero, BitVec.extractLsb'_append_extractLsb'_eq_extractLsb' (by rfl)]
          exact BitVec.extractLsb'_eq_self
        rw [encode, initEngineWord, hoperand, hopcode]
    split at h
    case isTrue hopcode => cases h; rw [hopcode]; rfl
    split at h
    case isTrue hopcode =>
      split at h <;> cases h
      case isTrue hzero => rw [hopcode, hzero]; rfl
    cases h
  · intro h
    cases i with
    | initPins => cases h; rfl
    | initEngine v =>
      cases h
      rcases BitVec.eq_zero_or_eq_one v with rfl | rfl <;> rfl
    | setAddress a => cases h; simp [decodeCommand, setAddressWord]
    | readWord => cases h; rfl
    | _ => cases h

theorem encode_command_of_host {i : Instr} (hi : i.agent = .host) : ∃ c, encode i = .command c := by
  cases i with
  | initPins | initEngine | setAddress | readWord => exact ⟨_, rfl⟩
  | _ => cases hi

/-- Counting the words that decode into a family of commands is counting the family: decoding is a bijection between them. -/
theorem card_decodeCommand_family {α : Type} {f : α → Instr} (hinj : f.Injective) (hhost : ∀ x, (f x).agent = .host) :
    Nat.card { c : Word40 // ∃ x, decodeCommand c = .ok (f x) } = Nat.card α := by
  refine Nat.card_eq_of_bijective (fun c => c.2.choose) ⟨fun c d heq => ?_, fun x => ?_⟩
  · have hc := decodeCommand_eq_ok_iff.1 c.2.choose_spec
    have hd := decodeCommand_eq_ok_iff.1 d.2.choose_spec
    rw [show c.2.choose = d.2.choose from heq, hd] at hc
    exact Subtype.ext (CodeWord.command.inj hc.symm)
  · obtain ⟨c, hc⟩ := encode_command_of_host (hhost x)
    have hok := decodeCommand_eq_ok_iff.2 hc
    have hmem : ∃ y, decodeCommand c = .ok (f y) := ⟨x, hok⟩
    exact ⟨⟨c, hmem⟩, hinj (Except.ok.inj (hmem.choose_spec.symm.trans hok))⟩

theorem card_decodeCommand_single {i : Instr} (hi : i.agent = .host) :
    Nat.card { c : Word40 // decodeCommand c = .ok i } = 1 := by
  simpa using card_decodeCommand_family (f := fun _ : Unit => i) (fun _ _ _ => rfl) (fun _ => hi)

/-- The commands of R102 with their operands, as one family. -/
def commandOf : Unit ⊕ BitVec 1 ⊕ Word32 ⊕ Unit → Instr
  | .inl _ => .initPins
  | .inr (.inl v) => .initEngine v
  | .inr (.inr (.inl a)) => .setAddress a
  | .inr (.inr (.inr _)) => .readWord

theorem commandOf_injective : commandOf.Injective := by
  rintro (_ | _ | _ | _) (_ | _ | _ | _) h <;> cases h <;> rfl

theorem commandOf_agent (x : Unit ⊕ BitVec 1 ⊕ Word32 ⊕ Unit) : (commandOf x).agent = .host := by
  rcases x with _ | _ | _ | _ <;> rfl

theorem exists_commandOf {i : Instr} (hi : i.agent = .host) : ∃ x, commandOf x = i := by
  cases i with
  | initPins => exact ⟨.inl (), rfl⟩
  | initEngine v => exact ⟨.inr (.inl v), rfl⟩
  | setAddress a => exact ⟨.inr (.inr (.inl a)), rfl⟩
  | readWord => exact ⟨.inr (.inr (.inr ())), rfl⟩
  | _ => cases hi

theorem card_bitVec (n : Nat) : Nat.card (BitVec n) = 2 ^ n := by
  rw [Nat.card_congr BitVec.equivFin.toEquiv, Nat.card_fin]

theorem card_legal_words :
    Nat.card { c : Word40 // ∃ x, decodeCommand c = .ok (commandOf x) } = 2 ^ 32 + 4 := by
  rw [card_decodeCommand_family commandOf_injective commandOf_agent]
  simp only [Nat.card_sum, Nat.card_unique, card_bitVec, Nat.reducePow, Nat.reduceAdd]

theorem decodeCommand_error_iff {c : Word40} :
    (∃ e, decodeCommand c = .error e) ↔ ¬ ∃ x, decodeCommand c = .ok (commandOf x) := by
  cases h : decodeCommand c with
  | error e => simp
  | ok i =>
    obtain ⟨x, rfl⟩ := exists_commandOf (decodeCommand_agent c i h)
    simp

/-- The illegal words are the words that are left beside the legal ones. -/
theorem card_illegal_words :
    Nat.card { c : Word40 // ∃ e, decodeCommand c = .error e } = 2 ^ 40 - 2 ^ 32 - 4 := by
  have htotal := Nat.card_congr (Equiv.sumCompl fun c : Word40 => ∃ x, decodeCommand c = .ok (commandOf x))
  rw [Nat.card_sum, card_legal_words, card_bitVec] at htotal
  simp only [decodeCommand_error_iff]
  omega

/-- Settles O6: each count is the number of operands of the command, and the illegal words are all the others. -/
theorem commandWordCount : Obligations.CommandWordCount :=
  ⟨(card_decodeCommand_family (fun _ _ => Instr.setAddress.inj) fun _ => rfl).trans (card_bitVec 32),
    (card_decodeCommand_family (fun _ _ => Instr.initEngine.inj) fun _ => rfl).trans (card_bitVec 1),
    card_decodeCommand_single rfl, card_decodeCommand_single rfl, card_illegal_words⟩

/-- Settles O5: the four commands are the encodings of what they decode to, the two other words hit R104's illegal branches. -/
theorem encodingExamples : Obligations.EncodingExamples :=
  ⟨decodeCommand_eq_ok_iff.2 rfl, decodeCommand_eq_ok_iff.2 rfl, decodeCommand_eq_ok_iff.2 rfl,
    decodeCommand_eq_ok_iff.2 rfl, by decide, by decide⟩

/-! The assembler's pseudo-instruction (30_encoding.md R109). -/

theorem readAt_wellFormed_iff {imm n : Nat} : (AsmLine.readAt imm n).wellFormed = true ↔ imm < 2 ^ 32 ∧ 1 ≤ n := by
  simp [AsmLine.wellFormed]

theorem assemble_readAt {imm n : Nat} (h : (AsmLine.readAt imm n).wellFormed = true) :
    assemble (.readAt imm n) = some (.setAddress (BitVec.ofNat 32 imm) :: List.replicate n .readWord) :=
  if_pos h

theorem assemble_ill_formed {l : AsmLine} (h : ¬ l.wellFormed = true) : assemble l = none :=
  if_neg h

/-- Settles O56: the two clauses are the line's being well formed and its not being so. -/
theorem readAtExpansion : Obligations.ReadAtExpansion := by
  refine fun imm n => ⟨fun himm hn => ⟨BitVec.ofNat 32 imm, ?_, ?_⟩, fun hbad => ?_⟩
  · rw [BitVec.toNat_ofNat, Nat.mod_eq_of_lt himm]
  · exact assemble_readAt (readAt_wellFormed_iff.2 ⟨himm, hn⟩)
  · refine assemble_ill_formed fun hwf => ?_
    obtain ⟨himm, hn⟩ := readAt_wellFormed_iff.1 hwf
    omega

end Sys2Proof.Machine

namespace Sys2Proof.Machine

/-! The events of the pin primitives (40_bus_pin_set.md R124). -/

/-- A `Drive` that is made is the one of an agent that may drive the group (R122): its event is that of the lines driven. -/
theorem trace_of_drive_go {ag : Agent} {c : Word40} {gv : GroupVal} {s t : State} (h : drive ag c gv s = .go t) :
    t.trace = s.trace ++ [⟨ag, .lvl gv⟩] := by
  rcases drive_cases ag c gv s with hgo | ⟨-, -, hstop⟩
  · obtain rfl : driveLines ag gv s = t := Flow.go.inj (hgo.symm.trans h)
    exact driveLines_trace ag gv s
  · exact nomatch hstop.symm.trans h

/-- Settles O18: each primitive's own trace equation, and for `Drive` the case in which it is made. -/
theorem primitivesLogOneEvent : Obligations.PrimitivesLogOneEvent :=
  fun ag _ gv g d s =>
    ⟨cfg_trace ag gv d s, setDir_trace ag g d s, fun _ => trace_of_drive_go, sampleStep_trace ag s⟩

end Sys2Proof.Machine

/-! SET_ADDRESS (41_address_controller.md R140 to R144): its second event leaves the strobes inactive with AD driven, and from
there each latch pulse captures the half that is on AD. -/
namespace Sys2Proof.Machine

/-! Reactions (40_bus_pin_set.md R129, R130) from inactive strobes, and at the end of a latch pulse. -/

/-- The strobes are outputs of the block at their inactive level. -/
structure StrobesInactive (s : State) : Prop where
  driven : StrobesDriven s
  re : s.out.re = true
  alel : s.out.alel = true
  aleh : s.out.aleh = true

theorem rises_of_high {b : State} {l : CtrlLine} (hdir : b.dir.ctrl l = true) (hout : b.out.ctrl l = true)
    (s : State) : rises b s l = false := by
  simp [rises, ctrlLevel_driven hdir, hout]

/-- An event raises no strobe that was inactive before it, so the cartridge does not react. -/
theorem react_of_strobesInactive {b : State} (h : StrobesInactive b) (s : State) :
    react b s = { s with draws := s.draws + 4 } := by
  obtain ⟨⟨dre, dalel, daleh⟩, hre, halel, haleh⟩ := h
  exact react_quiet (rises_of_high (l := .aleh) daleh haleh s) (rises_of_high (l := .alel) dalel halel s)
    (rises_of_high (l := .re) dre hre s)

theorem driveLines_of_strobesInactive {s : State} (h : StrobesInactive s) (ag : Agent) (gv : GroupVal) :
    driveLines ag gv s =
      { s with out := s.out.put gv, trace := s.trace ++ [⟨ag, .lvl gv⟩], draws := s.draws + 4 } :=
  react_of_strobesInactive h _

theorem setDir_of_strobesInactive {s : State} (h : StrobesInactive s) (ag : Agent) (g : Group) (d : Dir) :
    setDir ag g d s =
      { s with dir := s.dir.setDir g d, trace := s.trace ++ [⟨ag, .dir g d⟩], draws := s.draws + 4 } :=
  react_of_strobesInactive h _

/-- R129, first clause alone. -/
theorem react_of_rises_aleh {b s : State} (haleh : rises b s .aleh = true) (halel : rises b s .alel = false)
    (hre : rises b s .re = false) :
    react b s = { s with latchH := s.busval (s.draws + 2), rdcnt := 0, draws := s.draws + 4 } := by
  rw [react_frame, react_latchH, react_latchL, react_rdcnt]
  simp [reactCount, haleh, halel, hre]

/-- R129, second clause alone. -/
theorem react_of_rises_alel {b s : State} (haleh : rises b s .aleh = false) (halel : rises b s .alel = true)
    (hre : rises b s .re = false) :
    react b s = { s with latchL := lowCapture b s, rdcnt := 0, draws := s.draws + 4 } := by
  rw [react_frame, react_latchH, react_latchL, react_rdcnt]
  simp [reactCount, haleh, halel, hre]

/-- The end of an ALEH pulse over an AD the Host drives captures that word (R131). -/
theorem driveLines_raise_aleh {s : State} (hd : StrobesDriven s) (had : s.dir.ad = 0xFFFF#16) (hre : s.out.re = true)
    (halel : s.out.alel = true) (haleh : s.out.aleh = false) (ag : Agent) :
    driveLines ag (.ctrl (.only .aleh) true) s = { s with
      out := { s.out with aleh := true }, latchH := s.out.ad, rdcnt := 0,
      trace := s.trace ++ [⟨ag, .lvl (.ctrl (.only .aleh) true)⟩], draws := s.draws + 4 } := by
  obtain ⟨dre, dalel, daleh⟩ := hd
  have low : s.out.ctrl .aleh = false := haleh
  rw [driveLines, react_of_rises_aleh, busval_out (by exact dre) (by exact hre) (by exact had)]
  · rfl
  · rw [rises_driven (by exact daleh) (by exact daleh), low]; rfl
  · exact rises_of_high (l := .alel) dalel halel _
  · exact rises_of_high (l := .re) dre hre _

/-- The end of an ALEL pulse over an AD the Host drives captures that word (R131). -/
theorem driveLines_raise_alel {s : State} (hd : StrobesDriven s) (had : s.dir.ad = 0xFFFF#16) (hre : s.out.re = true)
    (haleh : s.out.aleh = true) (halel : s.out.alel = false) (ag : Agent) :
    driveLines ag (.ctrl (.only .alel) true) s = { s with
      out := { s.out with alel := true }, latchL := s.out.ad, rdcnt := 0,
      trace := s.trace ++ [⟨ag, .lvl (.ctrl (.only .alel) true)⟩], draws := s.draws + 4 } := by
  obtain ⟨dre, dalel, daleh⟩ := hd
  have low : s.out.ctrl .alel = false := halel
  rw [driveLines, react_of_rises_alel, lowCapture_out (by exact dre) (by exact hre) (by exact had)]
  · rfl
  · exact rises_of_high (l := .aleh) daleh haleh _
  · rw [rises_driven (by exact dalel) (by exact dalel), low]; rfl
  · exact rises_of_high (l := .re) dre hre _

/-! The latch pulses (R140, E3 to E5 and E6 to E8). -/

/-- As SET_ADDRESS's second event leaves the pins: the strobes inactive and every AD line an output. -/
structure AdDriven (s : State) : Prop where
  inactive : StrobesInactive s
  ad : s.dir.ad = 0xFFFF#16

/-- A word driven on AD, and a pulse of one latch line. -/
def latchPulse (l : CtrlLine) (w : Word16) (s : State) : State :=
  driveLines .host (.ctrl (.only l) true) <| driveLines .host (.ctrl (.only l) false) <| driveLines .host (.ad w) s

/-- The events of a latch pulse. -/
def latchPulseEvents (l : CtrlLine) (w : Word16) : List Event :=
  [⟨.host, .lvl (.ad w)⟩, ⟨.host, .lvl (.ctrl (.only l) false)⟩, ⟨.host, .lvl (.ctrl (.only l) true)⟩]

/-- Up to the pulse's falling edge nothing reacts. -/
theorem latchPulse_falling {s : State} (h : StrobesInactive s) (l : CtrlLine) (w : Word16) :
    driveLines .host (.ctrl (.only l) false) (driveLines .host (.ad w) s) = { s with
      out := ({ s.out with ad := w } : Lines).putCtrl (.only l) false,
      trace := s.trace ++ [⟨.host, .lvl (.ad w)⟩] ++ [⟨.host, .lvl (.ctrl (.only l) false)⟩],
      draws := s.draws + 4 + 4 } := by
  rw [driveLines_of_strobesInactive h .host (.ad w), driveLines_of_strobesInactive]
  · rfl
  · exact ⟨h.driven, h.re, h.alel, h.aleh⟩

theorem latchPulse_aleh {s : State} (h : AdDriven s) (w : Word16) :
    latchPulse .aleh w s = { s with
      out := { s.out with ad := w }, latchH := w, rdcnt := 0, trace := s.trace ++ latchPulseEvents .aleh w,
      draws := s.draws + 12 } := by
  obtain ⟨⟨hd, hre, halel, haleh⟩, had⟩ := h
  rw [latchPulse, latchPulse_falling ⟨hd, hre, halel, haleh⟩,
    driveLines_raise_aleh (by exact hd) (by exact had) (by exact hre) (by exact halel) rfl]
  simp [latchPulseEvents, Lines.putCtrl, CtrlGroup.has, haleh]

theorem latchPulse_alel {s : State} (h : AdDriven s) (w : Word16) :
    latchPulse .alel w s = { s with
      out := { s.out with ad := w }, latchL := w, rdcnt := 0, trace := s.trace ++ latchPulseEvents .alel w,
      draws := s.draws + 12 } := by
  obtain ⟨⟨hd, hre, halel, haleh⟩, had⟩ := h
  rw [latchPulse, latchPulse_falling ⟨hd, hre, halel, haleh⟩,
    driveLines_raise_alel (by exact hd) (by exact had) (by exact hre) (by exact haleh) rfl]
  simp [latchPulseEvents, Lines.putCtrl, CtrlGroup.has, halel]

/-! SET_ADDRESS as a whole. -/

/-- What follows SET_ADDRESS's second event (R140, E3 to E9, then `ADDR_SET`). -/
def latchAddress (a : Word32) (s : State) : State :=
  { setDir .host .ad .input (latchPulse .alel (addrLow a) (latchPulse .aleh (addrHigh a) s)) with addrSet := true }

theorem latchAddress_of_adDriven {s : State} (h : AdDriven s) (a : Word32) :
    latchAddress a s = { s with
      dir := { s.dir with ad := 0#16 }, out := { s.out with ad := addrLow a }, latchH := addrHigh a,
      latchL := addrLow a, rdcnt := 0, addrSet := true,
      trace := s.trace ++ (latchPulseEvents .aleh (addrHigh a) ++ latchPulseEvents .alel (addrLow a) ++
        [⟨.host, .dir .ad .input⟩]),
      draws := s.draws + 28 } := by
  obtain ⟨⟨hd, hre, halel, haleh⟩, had⟩ := h
  rw [latchAddress, latchPulse_aleh ⟨⟨hd, hre, halel, haleh⟩, had⟩, latchPulse_alel, setDir_of_strobesInactive]
  · simp [Lines.setDir]
  · exact ⟨hd, hre, halel, haleh⟩
  · exact ⟨⟨hd, hre, halel, haleh⟩, had⟩

/-- The state after SET_ADDRESS's first two events (R140, E1 and E2). -/
def addressBusDriven (s : State) : State :=
  driveLines .host (.ctrl (inactiveGroup s.engine) true) (cfg .host (.ad 0x0000#16) .output s)

/-- Where the Host may drive RE or leaves it out of the second event, SET_ADDRESS runs to its end. -/
theorem setAddressEffect_latches {s : State} (h : s.engine = .timed ∨ s.reOwner = .host) (a : Word32) :
    (setAddressEffect a s).final = latchAddress a (addressBusDriven s) := by
  rcases setAddressEffect_final a s with ⟨hg, ho, -⟩ | ⟨-, hend⟩
  · rcases h with h | h
    · rw [h] at hg; cases hg
    · rw [h] at ho; cases ho
  · exact hend

theorem inactiveGroup_has_latches (e : Engine) :
    (inactiveGroup e).has .alel = true ∧ (inactiveGroup e).has .aleh = true := by
  cases e <;> exact ⟨rfl, rfl⟩

/-- The second event leaves the strobes inactive; with the Timed engine it leaves RE as it was (R146). -/
theorem adDriven_addressBusDriven {s : State} (hd : StrobesDriven s) (hre : s.engine = .timed → s.out.re = true) :
    AdDriven (addressBusDriven s) := by
  obtain ⟨halel, haleh⟩ := inactiveGroup_has_latches s.engine
  refine ⟨⟨hd, ?_, ?_, ?_⟩, rfl⟩ <;> simp only [addressBusDriven, driveLines_out, cfg_out, Lines.put, Lines.putCtrl]
  · cases he : s.engine with
    | timed => exact hre he
    | none => rfl
    | polled => rfl
  · rw [if_pos halel]
  · rw [if_pos haleh]

theorem exec_setAddress_accepting {s : State} (h : Accepting s) (hp : s.pinsReady = true) (a : Word32) :
    exec (.setAddress a) s = .next (setAddressEffect a s).final := by
  obtain ⟨hf, hphase⟩ := h
  exact command_pass hf (by simp [setAddressChecks, firstCause, busBusy, hphase, hp])

theorem Inv.timed_or_host_owns {s : State} (h : Inv s) : s.engine = .timed ∨ s.reOwner = .host := by
  by_cases he : s.engine = .timed
  · exact .inl he
  · obtain ⟨-, -, -, howner, -⟩ := h.notTimed he
    exact .inr howner

/-- Between commands the co-processor with the Timed engine is at U0, where RE is inactive (R192, R246). -/
theorem Inv.re_inactive_of_timed {s : State} (h : Inv s) (hacc : Accepting s) (hp : s.pinsReady = true)
    (he : s.engine = .timed) : s.out.re = true := by
  obtain ⟨hU0, -, -⟩ := h.timedIdle he hacc.2
  rw [h.reLevel hp, reStrobed, hU0]
  rfl

theorem addrHigh_setWidth (a : Word32) : (addrHigh a).setWidth 32 = a >>> 16 := by
  apply BitVec.eq_of_toNat_eq
  simp only [addrHigh, BitVec.toNat_setWidth, BitVec.extractLsb'_toNat, BitVec.toNat_ushiftRight]
  have := a.isLt
  omega

/-- A mask of 16 ones is the remainder modulo `2^16`. -/
theorem addrLow_setWidth (a : Word32) : (addrLow a).setWidth 32 = a &&& 0x0000FFFF#32 := by
  have hmask : a.toNat &&& 0xFFFF = a.toNat % 2 ^ 16 := Nat.and_two_pow_sub_one_eq_mod a.toNat 16
  apply BitVec.eq_of_toNat_eq
  simp only [addrLow, BitVec.toNat_setWidth, BitVec.extractLsb'_toNat, BitVec.toNat_and]
  exact Eq.trans (by omega) hmask.symm

/-- Settles O24: from the invariant the second event leaves AD driven and the strobes inactive, so both halves are captured. -/
theorem latchesHoldTheAddress : Obligations.LatchesHoldTheAddress := by
  intro a s hinv hacc hp
  obtain ⟨hdriven, -, -⟩ := hinv.pinDirs hp
  have hbus : AdDriven (addressBusDriven s) := adDriven_addressBusDriven hdriven (hinv.re_inactive_of_timed hacc hp)
  have hexec : exec (.setAddress a) s = .next (latchAddress a (addressBusDriven s)) := by
    rw [exec_setAddress_accepting hacc hp, setAddressEffect_latches hinv.timed_or_host_owns]
  rw [latchAddress_of_adDriven hbus] at hexec
  exact ⟨_, hexec, addrHigh_setWidth a, addrLow_setWidth a, rfl, rfl, rfl⟩

/-- R144 of SET_ADDRESS's effect, whether the second event faults or not. -/
theorem setAddressEffect_frame (a : Word32) (s : State) :
    let t := (setAddressEffect a s).final
    t.rdData = s.rdData ∧ t.engine = s.engine ∧ t.reOwner = s.reOwner ∧ t.cpState = s.cpState ∧ t.txq = s.txq ∧
      t.rxq = s.rxq := by
  rcases setAddressEffect_final a s with ⟨-, -, hfault⟩ | ⟨-, hend⟩
  · rw [hfault]; exact ⟨rfl, rfl, rfl, rfl, rfl, rfl⟩
  · rw [hend]; simp

/-- Settles O25: neither a halted block nor the fault of a check touches these fields, and nor does the effect. -/
theorem setAddressReturnsNothing : Obligations.SetAddressReturnsNothing := by
  intro a s t h
  rcases command_cases (setAddressWord a) (setAddressChecks s) s (.next (setAddressEffect a s).final) with
    ⟨-, hhalted⟩ | ⟨k, -, -, hfault⟩ | ⟨-, -, heffect⟩
  · cases hhalted.symm.trans h; exact ⟨rfl, rfl, rfl, rfl, rfl, rfl⟩
  · cases hfault.symm.trans h; exact ⟨rfl, rfl, rfl, rfl, rfl, rfl⟩
  · cases heffect.symm.trans h; exact setAddressEffect_frame a s

end Sys2Proof.Machine

/-! The timing co-processor (43_timed_coprocessor.md): the Host's completion, and how the micro-program moves. -/
namespace Sys2Proof.Machine

/-! The completion (R182), by `HOST_PHASE` and RXQ. -/

theorem completeReadWord_of_word {s : State} {w : Word16} {rest : List Word16} (hf : s.faulted = false)
    (hp : s.hostPhase = .waitWord) (hq : s.rxq = w :: rest) :
    completeReadWord s = { s with rxq := rest, rdData := some w, hostPhase := .ready } := by
  rw [completeReadWord, if_neg (by simp [hf, hp]), hq]

theorem completeReadWord_of_empty {s : State} (hq : s.rxq = []) : completeReadWord s = s := by
  rw [completeReadWord, hq, ite_self]

theorem completeReadWord_of_not_waiting {s : State} (hp : s.hostPhase ≠ .waitWord) : completeReadWord s = s :=
  if_pos (.inr hp)

/-- Settles O28: a word in RXQ, an empty RXQ, and a Host that does not wait. -/
theorem timedReadCompletion : Obligations.TimedReadCompletion := fun _ hf =>
  ⟨fun hp _ _ hq => completeReadWord_of_word hf hp hq, fun _ hq => completeReadWord_of_empty hq,
    fun hp => completeReadWord_of_not_waiting (by simp [hp])⟩

/-! U0 and U2 as whole transitions (R183, R185). -/

/-- Settles O29: at U0 the micro-step is `takeTrigger`, which splits on TXQ. -/
theorem waitTrigConsumesTrigger : Obligations.WaitTrigConsumesTrigger := by
  refine fun s hf hc => ⟨fun q rest hq => ?_, fun hq => ?_⟩
  · rw [exec_uWaitTrig_run s hf hc, takeTrigger_cons hq]
  · rw [exec_uWaitTrig_run s hf hc, takeTrigger_nil hq]

/-- Settles O31: at U2 the micro-step's run equation is the statement. -/
theorem holdChangesNothing : Obligations.HoldChangesNothing := exec_uHold_run

/-! The micro-program's loop (R190). -/

/-- The micro-step that follows `u`: U5 leads back to U0. -/
def nextMicroStep (u : Word3) : Word3 := if u = 0b101#3 then 0b000#3 else u + 1#3

theorem nextMicroStep_toNat {u : Word3} {i : Instr} (h : decodeMicro u = .ok i) :
    (u.toNat < 5 ∧ (nextMicroStep u).toNat = u.toNat + 1) ∨ (u = 0b101#3 ∧ nextMicroStep u = 0b000#3) := by
  rcases cpState_cases u with rfl | rfl | rfl | rfl | rfl | rfl | rfl | rfl <;> cases h
  all_goals decide

/-! Where each effect leaves `CP_STATE`. -/

theorem strobeRe_cpState (b : Bool) (u : Word3) (s : State) :
    (strobeRe b u s).cpState = u ∨ ((strobeRe b u s).cpState = s.cpState ∧ s.reOwner = .host) := by
  rcases strobeRe_cases b u s with ⟨-, hend⟩ | ⟨ho, hfault⟩
  · exact .inl (by rw [hend])
  · exact .inr ⟨by rw [hfault, raiseFault_cpState], ho⟩

theorem pushCpW_cpState_of_room {s : State} (h : s.rxFull = false) : (pushCpW s).cpState = 0#3 := by
  rw [pushCpW, h]; rfl

@[simp] theorem readTimedIssue_cpState (s : State) : (readTimedIssue s).cpState = s.cpState := by
  unfold readTimedIssue; split <;> rfl

@[simp] theorem readPolled_cpState (s : State) : (readPolled s).final.cpState = s.cpState := by
  rcases readPolled_cases s with ⟨-, hend⟩ | ⟨-, hfault⟩
  · rw [hend]; rfl
  · rw [hfault, raiseFault_cpState]

/-- A micro-step away from its own `CP_STATE`, or in a halted block, changes nothing (R189, 60_exceptions.md R213). -/
theorem exec_microStep_unchanged_or_performed {i : Instr} {s t : State} (hi : i.agent = .cp)
    (h : exec i s = .next t) : t = s ∨ (s.faulted = false ∧ decodeMicro s.cpState = .ok i) := by
  rcases exec_microStep_cases i s t hi h with hsame |
    ⟨hf, ⟨rfl, hc, -⟩ | ⟨rfl, hc, -⟩ | ⟨rfl, hc, -⟩ | ⟨rfl, hc, -⟩ | ⟨rfl, hc, -⟩ | ⟨rfl, hc, -⟩⟩
  · exact .inl hsame
  all_goals exact .inr ⟨hf, by rw [hc]; rfl⟩

/-- The micro-step at `CP_STATE` goes to the next one, unless it holds or faults for want of RE. -/
theorem exec_performed_cpState {i : Instr} {s t : State} (hf : s.faulted = false)
    (hd : decodeMicro s.cpState = .ok i) (h : exec i s = .next t) :
    t.cpState = nextMicroStep s.cpState ∨ (t.cpState = s.cpState ∧ (holds i s = true ∨ s.reOwner = .host)) := by
  rcases cpState_cases s.cpState with hc | hc | hc | hc | hc | hc | hc | hc <;> rw [hc] at hd <;> cases hd
  · rw [exec_uWaitTrig_run s hf hc] at h; cases h
    cases hq : s.txq with
    | nil => exact .inr ⟨by rw [takeTrigger_nil hq], .inl (by simp [holds, hf, hc, hq])⟩
    | cons q rest => exact .inl (by rw [takeTrigger_cons hq, hc]; rfl)
  · rw [exec_uReAssert_run s hf hc] at h; cases h
    exact (strobeRe_cpState false 2#3 s).imp (fun hend => by rw [hend, hc]; rfl) (And.imp_right .inr)
  · rw [exec_uHold_run s hf hc] at h; cases h
    exact .inl (by rw [hc]; rfl)
  · rw [exec_uSample_run s hf hc] at h; cases h
    exact .inl (by rw [hc]; rfl)
  · rw [exec_uReDeassert_run s hf hc] at h; cases h
    exact (strobeRe_cpState true 5#3 s).imp (fun hend => by rw [hend, hc]; rfl) (And.imp_right .inr)
  · rw [exec_uPush_run s hf hc] at h; cases h
    rcases Bool.eq_false_or_eq_true s.rxFull with hfull | hroom
    · exact .inr ⟨by rw [pushCpW_full hfull], .inl (by simp [holds, hf, hc, hfull])⟩
    · exact .inl (by rw [pushCpW_cpState_of_room hroom, hc]; rfl)

/-- Of the commands only INIT_ENGINE TIMED moves `CP_STATE` (10_state.md R31). -/
theorem exec_command_cpState {i : Instr} {s t : State} (hi : i.agent = .host) (h : exec i s = .next t) :
    t.cpState = s.cpState ∨ (i = .initEngine 1#1 ∧ t.cpState = 0#3) := by
  rcases exec_command_cases i s t hi h with rfl | ⟨k, c, -, rfl⟩ |
    ⟨-, -, ⟨-, -, rfl⟩ | ⟨-, -, -, rfl⟩ | ⟨hi, -, -, rfl⟩ | ⟨a, -, -, rfl⟩ | ⟨-, -, -, -, rfl⟩ | ⟨-, -, -, -, rfl⟩⟩
  · exact .inl rfl
  · exact .inl rfl
  · exact .inl rfl
  · exact .inl rfl
  · exact .inr ⟨hi, by rw [startCoprocessor_final]⟩
  · obtain ⟨-, -, -, hcp, -⟩ := setAddressEffect_frame a s
    exact .inl hcp
  · exact .inl (readTimedIssue_cpState s)
  · exact .inl (readPolled_cpState s)

/-- Settles O34: a performed micro-step goes to the next one unless it holds or faults, any other changes nothing, and of the
commands only INIT_ENGINE TIMED moves `CP_STATE`. -/
theorem microProgramIsOneLoop : Obligations.MicroProgramIsOneLoop := by
  refine fun i s t h => ⟨fun hf hd ho hh => ?_, fun hi => ?_, fun hi => exec_command_cpState hi h⟩
  · rcases exec_performed_cpState hf hd h with hnext | ⟨-, hholds | hhost⟩
    · exact hnext
    · cases hh.symm.trans hholds
    · cases ho.symm.trans hhost
  · rcases exec_microStep_unchanged_or_performed hi h with rfl | ⟨hf, hd⟩
    · exact .inl rfl
    rcases exec_performed_cpState hf hd h with hnext | ⟨hsame, -⟩
    · rw [hnext]; exact .inr (nextMicroStep_toNat hd)
    · exact .inl hsame

end Sys2Proof.Machine

/-! Decoding and encoding (30_encoding.md R102 to R107): both kinds of code word, and the command words by their bits. -/
namespace Sys2Proof.Machine

theorem decodeMicro_eq_ok_iff {u : Word3} {i : Instr} : decodeMicro u = .ok i ↔ encode i = .micro u := by
  constructor
  · intro h
    rcases cpState_cases u with rfl | rfl | rfl | rfl | rfl | rfl | rfl | rfl <;> cases h <;> rfl
  · intro h
    cases i <;> cases h <;> rfl

/-- The decoder's legal words are exactly the encoder's words. -/
theorem decode_eq_ok_iff {w : CodeWord} {i : Instr} : decode w = .ok i ↔ encode i = w := by
  cases w with
  | command c => exact decodeCommand_eq_ok_iff
  | micro u => exact decodeMicro_eq_ok_iff

/-- Settles O1: a word is legal exactly when it is an encoding. -/
theorem decodeEncodeRoundTrip : Obligations.DecodeEncodeRoundTrip := fun _ => decode_eq_ok_iff.2 rfl

/-- Settles O2: a word is legal exactly when it is an encoding. -/
theorem decodedWordIsItsEncoding : Obligations.DecodedWordIsItsEncoding := fun _ _ => decode_eq_ok_iff.1

/-- Settles O7: each micro-step's index is its encoding; the two other indices are named. -/
theorem microStepTable : Obligations.MicroStepTable :=
  ⟨decodeMicro_eq_ok_iff.2 rfl, decodeMicro_eq_ok_iff.2 rfl, decodeMicro_eq_ok_iff.2 rfl, decodeMicro_eq_ok_iff.2 rfl,
    decodeMicro_eq_ok_iff.2 rfl, decodeMicro_eq_ok_iff.2 rfl, rfl, rfl⟩

/-! What a command word decodes to, by its fields (R104). -/

theorem mkCommand_eq_iff {o : Word8} {x : Word32} {c : Word40} :
    mkCommand o x = c ↔ opcodeField c = o ∧ operandField c = x := by
  constructor
  · rintro rfl
    exact ⟨opcodeField_mkCommand o x, operandField_mkCommand o x⟩
  · rintro ⟨rfl, rfl⟩
    exact mkCommand_fields c

/-- A word decodes to a command exactly when its two fields are those of the command's word. -/
theorem decodeCommand_eq_ok_iff_fields {c : Word40} {i : Instr} {o : Word8} {x : Word32}
    (hi : encode i = .command (mkCommand o x)) :
    decodeCommand c = .ok i ↔ opcodeField c = o ∧ operandField c = x := by
  rw [decodeCommand_eq_ok_iff, hi, CodeWord.command.injEq, mkCommand_eq_iff]

theorem getLsbD_operandField (c : Word40) {j : Nat} (hj : j < 32) : (operandField c).getLsbD j = c.getLsbD j := by
  simp [operandField, hj]

/-- Format V (R101): the operand is `v` exactly when bits 1 to 31 are 0 and bit 0 is that of `v`. -/
theorem operandField_eq_formatV_iff {c : Word40} {v : BitVec 1} :
    operandField c = 0#31 ++ v ↔ (∀ j, 1 ≤ j → j < 32 → c.getLsbD j = false) ∧ v.getLsbD 0 = c.getLsbD 0 := by
  have hbit (j : Nat) : (0#31 ++ v).getLsbD j = if j = 0 then v.getLsbD 0 else false := by
    rw [BitVec.getLsbD_append]
    rcases j with _ | j <;> simp
  constructor
  · intro h
    refine ⟨fun j hpos hj => ?_, ?_⟩
    · rw [← getLsbD_operandField c hj, h, hbit, if_neg (by omega)]
    · rw [← getLsbD_operandField c (by decide), h, hbit, if_pos rfl]
  · rintro ⟨hzero, hv⟩
    refine BitVec.eq_of_getLsbD_eq fun j hj => ?_
    rw [hbit, getLsbD_operandField c hj]
    split
    case isTrue h => rw [h, hv]
    case isFalse h => exact hzero j (by omega) hj

theorem decodeCommand_initEngine_iff {c : Word40} {v : BitVec 1} : decodeCommand c = .ok (.initEngine v) ↔
    opcodeField c = 0x02#8 ∧ (∀ j, 1 ≤ j → j < 32 → c.getLsbD j = false) ∧ v.getLsbD 0 = c.getLsbD 0 := by
  rw [decodeCommand_eq_ok_iff_fields rfl, operandField_eq_formatV_iff]

/-- Settles O3: each clause compares the word's two fields with those of the command's one word. -/
theorem commandDecodeTable : Obligations.CommandDecodeTable := fun c =>
  ⟨decodeCommand_eq_ok_iff_fields rfl, fun _ => decodeCommand_initEngine_iff,
    fun _ => (decodeCommand_eq_ok_iff_fields rfl).trans (and_congr_right fun _ => eq_comm),
    decodeCommand_eq_ok_iff_fields rfl, decodeCommand_agent c⟩

/-! The illegal words (R105). -/

theorem exists_formatV_operand_iff {c : Word40} :
    (∃ v : BitVec 1, decodeCommand c = .ok (.initEngine v)) ↔
      opcodeField c = 0x02#8 ∧ ¬ ∃ j, 1 ≤ j ∧ j < 32 ∧ c.getLsbD j = true := by
  simp only [decodeCommand_initEngine_iff, exists_and_left]
  refine and_congr_right fun _ => ⟨fun ⟨hzero, _⟩ ⟨j, hpos, hj, hone⟩ => ?_, fun hnone => ⟨fun j hpos hj => ?_, ?_⟩⟩
  · rw [hzero j hpos hj] at hone; cases hone
  · exact Bool.eq_false_iff.2 fun hone => hnone ⟨j, hpos, hj, hone⟩
  · exact ⟨BitVec.ofBool (c.getLsbD 0), by simp⟩

/-- A word is legal exactly when it is one of the four commands. -/
theorem decodeCommand_error_iff_no_command {c : Word40} : (∃ e, decodeCommand c = .error e) ↔
    ¬ (decodeCommand c = .ok .initPins ∨ (∃ v, decodeCommand c = .ok (.initEngine v)) ∨
      (∃ a, decodeCommand c = .ok (.setAddress a)) ∨ decodeCommand c = .ok .readWord) := by
  rw [decodeCommand_error_iff]
  refine not_congr ⟨fun ⟨x, hx⟩ => ?_, ?_⟩
  · rcases x with _ | v | a | _
    exacts [.inl hx, .inr (.inl ⟨v, hx⟩), .inr (.inr (.inl ⟨a, hx⟩)), .inr (.inr (.inr hx))]
  · rintro (hx | ⟨v, hx⟩ | ⟨a, hx⟩ | hx)
    exacts [⟨.inl (), hx⟩, ⟨.inr (.inl v), hx⟩, ⟨.inr (.inr (.inl a)), hx⟩, ⟨.inr (.inr (.inr ())), hx⟩]

theorem opcode_cases (o : Word8) :
    o = 0x00#8 ∨ o = 0x01#8 ∨ o = 0x02#8 ∨ o = 0x03#8 ∨ o = 0x04#8 ∨ 5 ≤ o.toNat := by
  bv_omega

/-- R105: by the opcode, a reserved one or one whose format leaves operand bits reserved. -/
theorem decodeCommand_error_iff_bits {c : Word40} : (∃ e, decodeCommand c = .error e) ↔
    (opcodeField c = 0x00#8 ∨ 5 ≤ (opcodeField c).toNat) ∨
      ((opcodeField c = 0x01#8 ∨ opcodeField c = 0x04#8) ∧ operandField c ≠ 0#32) ∨
      (opcodeField c = 0x02#8 ∧ ∃ j, 1 ≤ j ∧ j < 32 ∧ c.getLsbD j = true) := by
  have haddr : (∃ a, decodeCommand c = .ok (.setAddress a)) ↔ opcodeField c = 0x03#8 := by
    simp [decodeCommand_eq_ok_iff_fields (i := .setAddress _) rfl]
  rw [decodeCommand_error_iff_no_command, exists_formatV_operand_iff, haddr,
    decodeCommand_eq_ok_iff_fields (i := .initPins) rfl, decodeCommand_eq_ok_iff_fields (i := .readWord) rfl]
  generalize opcodeField c = o
  rcases opcode_cases o with rfl | rfl | rfl | rfl | rfl | hge
  case inr.inr.inr.inr.inr =>
    have hne (k : Nat) (hk : k < 5) : o ≠ BitVec.ofNat 8 k := by
      rintro rfl
      rw [BitVec.toNat_ofNat, Nat.mod_eq_of_lt (by omega)] at hge
      omega
    simp [hge, hne 1, hne 2, hne 3, hne 4]
  all_goals simp

/-! The Host's turn with a command word listed (20_memory.md R83, R84). -/

theorem step_issue_illegal {s : State} {ts : List Turn} {c : Word40} {cs : List Word40} {e : DecodeError}
    (hf : s.faulted = false) (hs : s.sched = .issue :: ts) (hc : s.cmds = c :: cs) (hd : decodeCommand c = .error e) :
    step s = .next (raiseFault .illegalCommand c { s with sched := ts, cmds := cs }) := by
  rw [step_turn hf hs]
  simp only [takeTurn, hostIssue, hc, hd, illegalCommand]

/-- Settles O4: the illegal words by opcode and reserved bits; issuing one is the turn's illegal branch. -/
theorem reservedWordsFault : Obligations.ReservedWordsFault := by
  refine fun c => ⟨decodeCommand_error_iff_bits.symm, fun ⟨e, hd⟩ s ts cs hf hs hc => ?_, ?_⟩
  · exact step_issue_illegal hf hs hc hd
  · rintro rfl
    exact ⟨.reservedOpcode, rfl⟩

end Sys2Proof.Machine

/-! The turns (20_memory.md R83, R84), the halted block and the checks of a command (60_exceptions.md R210 to R214). -/
namespace Sys2Proof.Machine

/-- `holds` does not read the turns to come. -/
theorem holds_withSched (i : Instr) (s : State) (ts : List Turn) : holds i { s with sched := ts } = holds i s := by
  cases i <;> rfl

theorem hostIssue_run {s : State} {c : Word40} {cs : List Word40} {i : Instr} (hc : s.cmds = c :: cs)
    (hd : decodeCommand c = .ok i) (hh : holds i s = false) : hostIssue s = exec i { s with cmds := cs } := by
  simp [hostIssue, hc, hd, hh]

theorem hostIssue_holds {s : State} {c : Word40} {cs : List Word40} {i : Instr} (hc : s.cmds = c :: cs)
    (hd : decodeCommand c = .ok i) (hh : holds i s = true) : hostIssue s = .next s := by
  simp [hostIssue, hc, hd, hh]

theorem step_issue {s : State} {ts : List Turn} {c : Word40} {cs : List Word40} {i : Instr} (hf : s.faulted = false)
    (hs : s.sched = .issue :: ts) (hc : s.cmds = c :: cs) (hd : decodeCommand c = .ok i) (hh : holds i s = false) :
    step s = exec i { s with sched := ts, cmds := cs } :=
  (step_turn hf hs).trans (hostIssue_run (s := { s with sched := ts }) hc hd ((holds_withSched i s ts).trans hh))

theorem step_issue_holds {s : State} {ts : List Turn} {c : Word40} {cs : List Word40} {i : Instr}
    (hf : s.faulted = false) (hs : s.sched = .issue :: ts) (hc : s.cmds = c :: cs) (hd : decodeCommand c = .ok i)
    (hh : holds i s = true) : step s = .next { s with sched := ts } :=
  (step_turn hf hs).trans (hostIssue_holds (s := { s with sched := ts }) hc hd ((holds_withSched i s ts).trans hh))

/-- Settles O8: a command that runs, and one that holds. -/
theorem issueTurnRunsDecodedCommand : Obligations.IssueTurnRunsDecodedCommand :=
  fun _ _ _ _ _ hf hs hc hd => ⟨step_issue hf hs hc hd, step_issue_holds hf hs hc hd⟩

theorem step_coproc_off {s : State} {ts : List Turn} (hf : s.faulted = false) (hs : s.sched = .coproc :: ts)
    (hc : s.cpState = 7#3) : step s = .next { s with sched := ts } := by
  rw [step_turn hf hs]
  simp only [takeTurn, coprocTurn, hc, decodeMicro]
  rfl

theorem step_coproc_stuck {s : State} {ts : List Turn} (hf : s.faulted = false) (hs : s.sched = .coproc :: ts)
    (hc : s.cpState = 6#3) : step s = .fault .reservedMicroStep := by
  rw [step_turn hf hs]
  simp only [takeTurn, coprocTurn, hc, decodeMicro]
  rfl

/-- Settles O9: a micro-step, OFF, and the reserved value. -/
theorem coprocTurnRunsMicroStep : Obligations.CoprocTurnRunsMicroStep :=
  fun _ _ hf hs => ⟨fun _ hd => step_coproc hf hs hd, step_coproc_off hf hs, step_coproc_stuck hf hs⟩

/-- The completion does not read the turns to come. -/
theorem completeReadWord_withSched (s : State) (ts : List Turn) :
    completeReadWord { s with sched := ts } = { completeReadWord s with sched := ts } := by
  simp only [completeReadWord]
  split
  · rfl
  · split <;> rfl

theorem step_complete {s : State} {ts : List Turn} (hf : s.faulted = false) (hs : s.sched = .complete :: ts) :
    step s = .next { completeReadWord s with sched := ts } := by
  rw [step_turn hf hs, takeTurn, completeReadWord_withSched]

/-- Settles O10: the completion reads none of the lists. -/
theorem completeTurnCompletes : Obligations.CompleteTurnCompletes := fun _ _ => step_complete

/-! The halted block (R213). -/

theorem microStep_halted {u : Word3} {s e : State} (h : s.faulted = true) : microStep u s e = .next s := by
  rw [microStep, if_pos (.inl h)]

theorem exec_halted {s : State} (h : s.faulted = true) (i : Instr) : exec i s = .next s := by
  cases i with
  | initPins | initEngine | setAddress | readWord => exact command_halted h
  | _ => exact microStep_halted h

/-- Settles O11: both frames, the completion and the step look at `FAULTED` first. -/
theorem haltedBlockTakesNoStep : Obligations.HaltedBlockTakesNoStep :=
  fun _ h => ⟨exec_halted h, if_pos (.inl h), step_halted h⟩

/-- Settles O12: by induction on the number of steps, each of which is none. -/
theorem haltedStateIsFinal : Obligations.HaltedStateIsFinal := by
  intro s k h
  induction k with
  | zero => rfl
  | succ k ih => rw [run_next k (step_halted h), ih]

/-! The checks in their order (R211, R214): a command ends in the fault of the first that applies. -/

/-- In `WaitWord` the check every command makes first applies. -/
theorem command_busConflict {c : Word40} {ks : List (Bool × FaultCode)} {s : State}
    {e : Host.Outcome State Fault Refusal} (hf : s.faulted = false) (hphase : s.hostPhase = .waitWord) :
    command c ((busBusy s, .busConflict) :: ks) s e = .next (raiseFault .busConflict c s) :=
  command_fault hf (by simp [firstCause, busBusy, hphase])

/-- Before INIT_PINS the second check of the other commands applies. -/
theorem command_pinsNotInitialized {c : Word40} {ks : List (Bool × FaultCode)} {s : State}
    {e : Host.Outcome State Fault Refusal} (hf : s.faulted = false) (hphase : s.hostPhase = .ready)
    (hpins : s.pinsReady = false) :
    command c ((busBusy s, .busConflict) :: (!s.pinsReady, .pinsNotInitialized) :: ks) s e =
      .next (raiseFault .pinsNotInitialized c s) :=
  command_fault hf (by simp [firstCause, busBusy, hphase, hpins])

/-- Ready and with the pins initialised, the first two checks pass. -/
theorem firstCause_of_ready {ks : List (Bool × FaultCode)} {s : State} (hphase : s.hostPhase = .ready)
    (hpins : s.pinsReady = true) :
    firstCause ((busBusy s, .busConflict) :: (!s.pinsReady, .pinsNotInitialized) :: ks) = firstCause ks := by
  simp [firstCause, busBusy, hphase, hpins]

/-- INIT_ENGINE's word, its three fields in a row (30_encoding.md R101). -/
theorem initEngineWord_fields (v : BitVec 1) : initEngineWord v = 0x02#8 ++ 0#31 ++ v := by
  rcases BitVec.eq_zero_or_eq_one v with rfl | rfl <;> rfl

/-- Settles O13: in each phase the checks before the named one do not apply. -/
theorem commandFaultsInOrder : Obligations.CommandFaultsInOrder := by
  intro s hf
  simp only [← initEngineWord_fields]
  refine ⟨fun hphase => ?_, fun hphase hpins => ?_, fun hphase hpins => ⟨?_, fun hengine => ?_, fun hengine => ⟨?_, ?_⟩⟩⟩
  · exact ⟨command_busConflict hf hphase, fun _ => command_busConflict hf hphase,
      fun _ => command_busConflict hf hphase, command_busConflict hf hphase⟩
  · exact ⟨fun _ => command_pinsNotInitialized hf hphase hpins, fun _ => command_pinsNotInitialized hf hphase hpins,
      command_pinsNotInitialized hf hphase hpins⟩
  · exact command_fault (k := .pinsReinit) hf (by simp [initPinsChecks, firstCause, busBusy, hphase, hpins])
  · refine command_fault (k := .engineNotInitialized) hf ((firstCause_of_ready hphase hpins).trans ?_)
    simp [firstCause, hengine]
  · refine fun v => command_fault (k := .engineReinit) hf ((firstCause_of_ready hphase hpins).trans ?_)
    simp [firstCause, hengine]
  · refine fun haddr => command_fault (k := .readWithoutAddress) hf ((firstCause_of_ready hphase hpins).trans ?_)
    simp [firstCause, hengine, haddr]

end Sys2Proof.Machine

/-! The pin primitives and the cartridge's reactions (40_bus_pin_set.md R122 to R131), and the numbering of the lines
(10_state.md R33 to R35). -/
namespace Sys2Proof.Machine

/-- Settles O15: a `Drive` is its effect unless a non-owner drives RE. -/
theorem driveOwnership : Obligations.DriveOwnership :=
  fun _ _ _ _ => ⟨fun hre ho => drive_stop hre ho, fun h => ⟨_, drive_go h, rfl, rfl, rfl, rfl⟩⟩

/-! Samples (R123, R126 to R128). -/

/-- Bit `i` of a bitwise selection is that of the selected word. -/
theorem getLsbD_select (x y m : Word16) {i : Nat} (hi : i < 16) :
    ((x &&& m) ||| (y &&& ~~~ m)).getLsbD i = if m.getLsbD i then x.getLsbD i else y.getLsbD i := by
  simp only [BitVec.getLsbD_or, BitVec.getLsbD_and, BitVec.getLsbD_not, hi, decide_true, Bool.true_and]
  cases m.getLsbD i <;> simp

/-- The environment's next input, or a draw where it has listed none, is a word the cartridge gives (R127). -/
theorem cartridgeGives_next (s : State) (n : Nat) : CartridgeGives s (s.cart.head?.getD (s.cartWord n)) := by
  unfold CartridgeGives
  cases s.cart with
  | nil => exact ⟨n, rfl⟩
  | cons x xs => rfl

/-- With RE asserted and the AD lines inputs the sample is the cartridge's word. -/
theorem sampleWord_of_cartDrives {s : State} (h : s.cartDrives s.draws = true) :
    s.sampleWord = s.cart.head?.getD (s.cartWord s.draws) := by
  rw [State.sampleWord, State.adLevels, if_pos h]

/-- Settles O16: RE inactive, RE asserted over inputs, and contention. -/
theorem sampleReadsTheLines : Obligations.SampleReadsTheLines := by
  refine fun ag s => ⟨fun i hi hre => ?_, fun hre had => ?_, fun hre had => adLevels_contention hre had _,
    fun hdir => ctrlLevel_driven (l := .re) hdir _, rfl, rfl⟩
  · rw [State.sampleWord, adLevels_inactive hre, getLsbD_select _ _ _ hi]
  · rw [sampleWord_of_cartDrives (by simp [State.cartDrives, hre, had])]
    exact cartridgeGives_next s s.draws

/-! Reactions while the block drives the strobes (R129, R130): no edge is a draw. -/

theorem react_of_driven {b s : State} (hb : StrobesDriven b) (hs : StrobesDriven s) :
    react b s = { s with
      latchH := if !b.out.aleh && s.out.aleh then s.busval (s.draws + 2) else s.latchH
      latchL := if !b.out.alel && s.out.alel then lowCapture b s else s.latchL
      rdcnt := (if (!b.out.aleh && s.out.aleh) || (!b.out.alel && s.out.alel) then 0 else s.rdcnt) +
        (if !b.out.re && s.out.re then 1 else 0)
      draws := s.draws + 4 } := by
  obtain ⟨bre, balel, baleh⟩ := hb
  obtain ⟨sre, salel, saleh⟩ := hs
  have hre : rises b s .re = (!b.out.re && s.out.re) := rises_driven (l := .re) bre sre
  have halel : rises b s .alel = (!b.out.alel && s.out.alel) := rises_driven (l := .alel) balel salel
  have haleh : rises b s .aleh = (!b.out.aleh && s.out.aleh) := rises_driven (l := .aleh) baleh saleh
  have hcount : reactCount b s = (if (!b.out.aleh && s.out.aleh) || (!b.out.alel && s.out.alel) then 0 else s.rdcnt) +
      (if !b.out.re && s.out.re then 1 else 0) := by
    rw [reactCount, hre, halel, haleh]
    cases !b.out.re && s.out.re <;> rfl
  rw [react_frame, react_latchH, react_latchL, react_rdcnt, hcount, halel, haleh]

/-- Settles O17: the captured words are the levels of AD after the event, which are `OUT` with RE inactive. -/
theorem pulseEndsReact : Obligations.PulseEndsReact := by
  intro b s hb hs had
  refine ⟨_, _, _, react_of_driven hb hs, fun hhigh => ⟨busval_out hs.1 hhigh had _, lowCapture_out hs.1 hhigh had⟩⟩

/-! The lines as a word (10_state.md R33). -/

theorem getLsbD_word (x : Lines) : (∀ i, i < 16 → x.word.getLsbD i = x.ad.getLsbD i) ∧
    x.word.getLsbD 16 = x.we ∧ x.word.getLsbD 17 = x.re ∧ x.word.getLsbD 18 = x.alel ∧ x.word.getLsbD 19 = x.aleh ∧
    x.word.getLsbD 20 = x.rst := by
  simp only [Lines.word, BitVec.getLsbD_append]
  exact ⟨fun i hi => by simp [hi], by simp⟩

theorem ofWord_word (x : Lines) : Lines.ofWord x.word = x := by
  obtain ⟨had, hwe, hre, halel, haleh, hrst⟩ := getLsbD_word x
  have hlow : x.word.extractLsb' 0 16 = x.ad :=
    BitVec.eq_of_getLsbD_eq fun i hi => by simp [had i hi, hi]
  rw [Lines.ofWord, hlow, hwe, hre, halel, haleh, hrst]

/-- Below 16 the bits are those of AD, and the five bits above are one control line each. -/
theorem word_ofWord (w : Word21) : (Lines.ofWord w).word = w := by
  obtain ⟨had, hwe, hre, halel, haleh, hrst⟩ := getLsbD_word (Lines.ofWord w)
  refine BitVec.eq_of_getLsbD_eq fun i hi => ?_
  by_cases hlow : i < 16
  · rw [had i hlow]
    simp [Lines.ofWord, hlow]
  · obtain rfl | rfl | rfl | rfl | rfl : i = 16 ∨ i = 17 ∨ i = 18 ∨ i = 19 ∨ i = 20 := by omega
    exacts [hwe, hre, halel, haleh, hrst]

/-- Settles O19: the two conversions are inverse, bit by bit. -/
theorem lineNumbering : Obligations.LineNumbering :=
  ⟨word_ofWord, fun x => ⟨ofWord_word x, getLsbD_word x⟩⟩

end Sys2Proof.Machine

/-! The Host's commands as whole transitions (40_bus_pin_set.md R134, 41_address_controller.md R140 to R146,
42_word_read_engine.md R160 to R163). -/
namespace Sys2Proof.Machine

/-! Driving RE alone (R122, R130). -/

theorem put_re (x : Lines) (b : Bool) : x.put (.ctrl (.only .re) b) = { x with re := b } := rfl

/-- Driving RE while the block drives the strobes raises no latch line; the end of a read strobe advances `RDCNT`. -/
theorem driveLines_re {s : State} (hd : StrobesDriven s) (ag : Agent) (b : Bool) :
    driveLines ag (.ctrl (.only .re) b) s = { s with
      out := { s.out with re := b }, rdcnt := s.rdcnt + (if !s.out.re && b then 1 else 0),
      trace := s.trace ++ [⟨ag, .lvl (.ctrl (.only .re) b)⟩], draws := s.draws + 4 } := by
  rw [driveLines, react_of_driven hd (by exact hd), put_re]
  simp [State.log]

theorem driveLines_re_assert {s : State} (hd : StrobesDriven s) (ag : Agent) :
    driveLines ag (.ctrl (.only .re) false) s = { s with
      out := { s.out with re := false }, trace := s.trace ++ [⟨ag, .lvl (.ctrl (.only .re) false)⟩],
      draws := s.draws + 4 } := by
  rw [driveLines_re hd]; simp

theorem driveLines_re_deassert {s : State} (hd : StrobesDriven s) (hre : s.out.re = false) (ag : Agent) :
    driveLines ag (.ctrl (.only .re) true) s = { s with
      out := { s.out with re := true }, rdcnt := s.rdcnt + 1,
      trace := s.trace ++ [⟨ag, .lvl (.ctrl (.only .re) true)⟩], draws := s.draws + 4 } := by
  rw [driveLines_re hd]; simp [hre]

/-! What a sequence of primitives leaves: each changes the lines, the environment, the trace and the draws only. -/

/-- `t` is `s` but for the lines, the latches, `RDCNT`, the trace, the listed inputs and the count of draws. -/
def PinsOnly (s t : State) : Prop :=
  t = { s with
    dir := t.dir, out := t.out, latchH := t.latchH, latchL := t.latchL, rdcnt := t.rdcnt, trace := t.trace
    cart := t.cart, draws := t.draws }

theorem PinsOnly.trans {s t u : State} (hst : PinsOnly s t) (htu : PinsOnly t u) : PinsOnly s u := by
  refine Eq.trans htu ?_
  rw [hst]

theorem setDir_pinsOnly (ag : Agent) (g : Group) (d : Dir) (s : State) : PinsOnly s (setDir ag g d s) := rfl
theorem driveLines_pinsOnly (ag : Agent) (gv : GroupVal) (s : State) : PinsOnly s (driveLines ag gv s) := rfl
theorem sampleStep_pinsOnly (ag : Agent) (s : State) : PinsOnly s (sampleStep ag s) := rfl

theorem latchPulse_pinsOnly (l : CtrlLine) (w : Word16) (s : State) : PinsOnly s (latchPulse l w s) :=
  ((driveLines_pinsOnly _ _ _).trans (driveLines_pinsOnly _ _ _)).trans (driveLines_pinsOnly _ _ _)

/-! INIT_PINS (R134): its first event leaves the strobes inactive, so the two others cause no reaction. -/

theorem initPins_first_strobesInactive (s : State) :
    StrobesInactive (cfg .host (.ctrl .ctrl4 true) .output s) :=
  ⟨⟨rfl, rfl, rfl⟩, rfl, rfl, rfl⟩

/-- The three events of INIT_PINS. -/
def initPinsEvents : List Event :=
  [⟨.host, .cfg (.ctrl .ctrl4 true) .output⟩, ⟨.host, .dir .ad .input⟩,
    ⟨.host, .cfg (.ctrl (.only .rst) Config.rstInitLevel) rstInitDir⟩]

theorem rstInitDir_isOut : rstInitDir.isOut = Config.rstInitOutput := by
  unfold rstInitDir
  cases Config.rstInitOutput <;> rfl

theorem cfg_of_strobesInactive {s : State} (h : StrobesInactive s) (ag : Agent) (gv : GroupVal) (d : Dir) :
    cfg ag gv d s = { s with
      dir := s.dir.setDir gv.group d, out := s.out.put gv, trace := s.trace ++ [⟨ag, .cfg gv d⟩],
      draws := s.draws + 4 } :=
  react_of_strobesInactive h _

theorem initPinsEffect_eq (s : State) : initPinsEffect s =
    { cfg .host (.ctrl .ctrl4 true) .output s with
      pinsReady := true, dir := ⟨0#16, true, true, true, true, Config.rstInitOutput⟩
      out := ⟨s.out.ad, true, true, true, true, Config.rstInitLevel⟩
      trace := s.trace ++ initPinsEvents, draws := s.draws + 12 } := by
  have hfirst := initPins_first_strobesInactive s
  rw [initPinsEffect, setDir_of_strobesInactive hfirst, cfg_of_strobesInactive]
  · simp [initPinsEvents, Lines.setDir, Lines.put, Lines.putCtrl, GroupVal.group, CtrlGroup.has, Dir.isOut,
      ← rstInitDir_isOut]
  · exact ⟨hfirst.driven, hfirst.re, hfirst.alel, hfirst.aleh⟩

theorem exec_initPins_accepting {s : State} (h : Accepting s) (hp : s.pinsReady = false) :
    exec .initPins s = .next (initPinsEffect s) := by
  obtain ⟨hf, hphase⟩ := h
  exact command_pass hf (by simp [initPinsChecks, firstCause, busBusy, hphase, hp])

/-- Settles O20: only the first event can end a pulse, and it ends none of a line that was driven inactive before. -/
theorem initPinsCompletes : Obligations.InitPinsCompletes := by
  intro s hacc hp
  refine ⟨initPinsEffect s, exec_initPins_accepting hacc hp, ?_⟩
  rw [initPinsEffect_eq]
  refine ⟨rfl, rfl, rfl, rfl, rfl, fun hdir hout => ?_, fun hdir hout => ?_, fun hdriven haleh halel hre => ?_⟩
  · exact if_neg (Bool.eq_false_iff.1 (rises_of_high (l := .aleh) hdir hout _))
  · exact if_neg (Bool.eq_false_iff.1 (rises_of_high (l := .alel) hdir hout _))
  · rw [cfg_of_strobesInactive ⟨hdriven, hre, halel, haleh⟩]

/-! INIT_ENGINE (R160). -/

theorem exec_initEngine_accepting {s : State} (h : Accepting s) (hp : s.pinsReady = true) (he : s.engine = .none)
    (v : BitVec 1) : exec (.initEngine v) s =
      if v = 0#1 then .next { s with engine := .polled }
      else .next (startCoprocessor (initEngineWord v) s).final := by
  obtain ⟨hf, hphase⟩ := h
  exact command_pass hf ((firstCause_of_ready hphase hp).trans (by simp [firstCause, he]))

/-- Settles O21: with RE inactive the co-processor's first event changes no level, so nothing reacts. -/
theorem initEngineCompletes : Obligations.InitEngineCompletes := by
  refine fun s hacc hp he => ⟨exec_initEngine_accepting hacc hp he 0#1, fun hdriven hre => ⟨s.draws + 4, ?_⟩⟩
  rw [exec_initEngine_accepting hacc hp he, if_neg (by decide), startCoprocessor_final, driveLines_re (by exact hdriven)]
  simp [← hre]

/-! SET_ADDRESS with RE at either level (R140, R146). -/

/-- The events of SET_ADDRESS (R140, E1 to E9). -/
def setAddressEvents (e : Engine) (a : Word32) : List Event :=
  [⟨.host, .cfg (.ad 0x0000#16) .output⟩, ⟨.host, .lvl (.ctrl (inactiveGroup e) true)⟩] ++
    latchPulseEvents .aleh (addrHigh a) ++ latchPulseEvents .alel (addrLow a) ++ [⟨.host, .dir .ad .input⟩]

/-- An event that changes no strobe's level does not move `RDCNT`. -/
theorem react_rdcnt_of_same_out {b s : State} (hb : StrobesDriven b) (hs : StrobesDriven s) (hout : s.out = b.out) :
    (react b s).rdcnt = s.rdcnt := by
  rw [react_of_driven hb hs, hout]; simp

/-- The end of an ALEL pulse resets `RDCNT`, whatever the level of RE, which it does not touch. -/
theorem driveLines_raise_alel_rdcnt {s : State} (hd : StrobesDriven s) (halel : s.out.alel = false) (ag : Agent) :
    (driveLines ag (.ctrl (.only .alel) true) s).rdcnt = 0 := by
  rw [driveLines, react_of_driven hd (by exact hd)]
  simp [State.log, Lines.put, Lines.putCtrl, CtrlGroup.has, halel]

theorem latchAddress_rdcnt {s : State} (hd : StrobesDriven s) (a : Word32) : (latchAddress a s).rdcnt = 0 := by
  refine Eq.trans (react_rdcnt_of_same_out (by exact hd) (by exact hd) rfl) ?_
  exact driveLines_raise_alel_rdcnt (by exact hd) rfl .host

theorem latchAddress_frame (s : State) (a : Word32) : latchAddress a s =
    { s with
      dir := { s.dir with ad := 0#16 }, out := { s.out with ad := addrLow a, alel := true, aleh := true }
      latchH := (latchAddress a s).latchH, latchL := (latchAddress a s).latchL, rdcnt := (latchAddress a s).rdcnt
      addrSet := true
      trace := s.trace ++ (latchPulseEvents .aleh (addrHigh a) ++ latchPulseEvents .alel (addrLow a) ++
        [⟨.host, .dir .ad .input⟩])
      draws := s.draws + 28 } := by
  have hpins : PinsOnly s (setDir .host .ad .input (latchPulse .alel (addrLow a) (latchPulse .aleh (addrHigh a) s))) :=
    ((latchPulse_pinsOnly _ _ _).trans (latchPulse_pinsOnly _ _ _)).trans (setDir_pinsOnly _ _ _ _)
  rw [latchAddress, hpins]
  simp [latchPulse, latchPulseEvents, Lines.setDir, Lines.put, Lines.putCtrl, CtrlGroup.has]

/-- SET_ADDRESS's effect run to its end, RE at either level: all but the captured words and `RDCNT` (R140, R146). -/
theorem setAddressEffect_completes {s : State} (hre : s.engine = .timed ∨ s.reOwner = .host) (a : Word32) :
    (setAddressEffect a s).final = { s with
      dir := { s.dir with ad := 0#16 }
      out := { s.out.putCtrl (inactiveGroup s.engine) true with ad := addrLow a, alel := true, aleh := true }
      latchH := (latchAddress a (addressBusDriven s)).latchH, latchL := (latchAddress a (addressBusDriven s)).latchL
      rdcnt := (latchAddress a (addressBusDriven s)).rdcnt, addrSet := true
      trace := s.trace ++ setAddressEvents s.engine a, draws := s.draws + 36 } := by
  have htrace : (addressBusDriven s).trace ++ (latchPulseEvents .aleh (addrHigh a) ++
      latchPulseEvents .alel (addrLow a) ++ [⟨.host, .dir .ad .input⟩]) = s.trace ++ setAddressEvents s.engine a := by
    simp [addressBusDriven, setAddressEvents]
  rw [setAddressEffect_latches hre, latchAddress_frame, htrace]
  rfl

/-- SET_ADDRESS with its checks passed and the strobes driven resets `RDCNT`, RE at either level. -/
theorem exec_setAddress_completes {s : State} (hacc : Accepting s) (hp : s.pinsReady = true) (hd : StrobesDriven s)
    (hre : s.engine = .timed ∨ s.reOwner = .host) (a : Word32) :
    exec (.setAddress a) s = .next { s with
      dir := { s.dir with ad := 0#16 }
      out := { s.out.putCtrl (inactiveGroup s.engine) true with ad := addrLow a, alel := true, aleh := true }
      latchH := (latchAddress a (addressBusDriven s)).latchH, latchL := (latchAddress a (addressBusDriven s)).latchL
      rdcnt := 0, addrSet := true, trace := s.trace ++ setAddressEvents s.engine a, draws := s.draws + 36 } := by
  rw [exec_setAddress_accepting hacc hp, setAddressEffect_completes hre, latchAddress_rdcnt (by exact hd)]

/-- With RE inactive the latches hold the two halves (R140). -/
theorem latchAddress_latches {s : State} (h : AdDriven s) (a : Word32) :
    (latchAddress a s).latchH = addrHigh a ∧ (latchAddress a s).latchL = addrLow a := by
  rw [latchAddress_of_adDriven h]
  exact ⟨rfl, rfl⟩

/-- Settles O22: the second event drives RE inactive, so both halves are latched. -/
theorem setAddressCompletes : Obligations.SetAddressCompletes := by
  intro a s hacc hp hd he hown
  have hgroup : inactiveGroup s.engine = .ctrl4 := by cases h : s.engine <;> simp_all [inactiveGroup]
  obtain ⟨hhigh, hlow⟩ := latchAddress_latches (adDriven_addressBusDriven hd fun h => absurd h he) a
  refine ⟨s.draws + 36, ?_⟩
  rw [exec_setAddress_completes hacc hp hd (.inr hown), hhigh, hlow, setAddressEvents, hgroup]
  rfl

/-- Settles O23: the second event leaves RE, and the latches hold the halves where RE was inactive. -/
theorem setAddressTimedLeavesRe : Obligations.SetAddressTimedLeavesRe := by
  intro a s hacc hp hd he
  refine ⟨_, _, s.draws + 36, ?_, fun hre => latchAddress_latches (adDriven_addressBusDriven hd fun _ => hre) a⟩
  rw [exec_setAddress_completes hacc hp hd (.inl he), setAddressEvents, he]
  rfl

/-! READ_WORD (R161, R162, 43_timed_coprocessor.md R181). -/

theorem exec_readWord_accepting {s : State} (h : Accepting s) (hp : s.pinsReady = true) (he : s.engine ≠ .none)
    (ha : s.addrSet = true) : exec .readWord s =
      if s.engine = .timed then .next (readTimedIssue s) else .next (readPolled s).final := by
  obtain ⟨hf, hphase⟩ := h
  exact command_pass hf ((firstCause_of_ready hphase hp).trans (by simp [firstCause, he, ha]))

/-- The events of one read, in either variant (R162, R164, 43_timed_coprocessor.md R191). -/
def readEvents (ag : Agent) (w : Word16) : List Event :=
  [⟨ag, .lvl (.ctrl (.only .re) false)⟩, ⟨ag, .smp w⟩, ⟨ag, .lvl (.ctrl (.only .re) true)⟩]

/-- The Polled read by the Host that owns RE (R162): the falling edge causes no reaction, the sample is the cartridge's
word, the rising edge advances `RDCNT`. -/
theorem readPolled_final {s : State} (hown : s.reOwner = .host) (hd : StrobesDriven s) (had : s.dir.ad = 0#16) :
    (readPolled s).final = { s with
      rdData := some (s.cart.head?.getD (s.cartWord (s.draws + 4))), out := { s.out with re := true }
      rdcnt := s.rdcnt + 1, cart := s.cart.tail
      trace := s.trace ++ readEvents .host (s.cart.head?.getD (s.cartWord (s.draws + 4))), draws := s.draws + 9 } := by
  rcases readPolled_cases s with ⟨-, hend⟩ | ⟨hcp, -⟩
  · generalize hlow : driveLines .host (.ctrl (.only .re) false) s = low at hend
    rw [driveLines_re_assert hd] at hlow
    have hre : low.dir.re = true := by rw [← hlow]; exact hd.1
    have hout : low.out.re = false := by rw [← hlow]
    have hinput : low.dir.ad = 0#16 := by rw [← hlow]; exact had
    have hdriven : StrobesDriven (sampleStep .host low) := by rw [← hlow]; exact hd
    have hsample : sampleStep .host low = { low with
        cart := low.cart.tail, draws := low.draws + 1, trace := low.trace ++ [⟨.host, .smp low.sampleWord⟩] } := by
      rw [← sampleStep_cart_read .host hre hout hinput]; rfl
    rw [hend, driveLines_re_deassert hdriven hout, hsample, sampleWord_read hre hout hinput, ← hlow]
    simp [State.cartWord, readEvents]
  · rw [hown] at hcp; cases hcp

/-- The Polled read as a whole transition. -/
theorem exec_readWord_polled {s : State} (hacc : Accepting s) (hp : s.pinsReady = true) (he : s.engine = .polled)
    (ha : s.addrSet = true) (hown : s.reOwner = .host) (hd : StrobesDriven s) (had : s.dir.ad = 0#16) :
    exec .readWord s = .next { s with
      rdData := some (s.cart.head?.getD (s.cartWord (s.draws + 4))), out := { s.out with re := true }
      rdcnt := s.rdcnt + 1, cart := s.cart.tail
      trace := s.trace ++ readEvents .host (s.cart.head?.getD (s.cartWord (s.draws + 4))), draws := s.draws + 9 } := by
  rw [exec_readWord_accepting hacc hp (by simp [he]) ha, if_neg (by simp [he]), readPolled_final hown hd had]

/-- Settles O26: the Polled read's end, with the cartridge's next word. -/
theorem polledReadCompletes : Obligations.PolledReadCompletes :=
  fun s hacc hp he ha hown hd had =>
    ⟨_, s.draws + 9, cartridgeGives_next s (s.draws + 4), exec_readWord_polled hacc hp he ha hown hd had⟩

theorem readTimedIssue_of_room {s : State} (h : s.txq.length < Config.txDepth) :
    readTimedIssue s = { s with txq := s.txq ++ [.trig], hostPhase := .waitWord } :=
  if_neg (by simp [State.txFull, h])

theorem readTimedIssue_of_full {s : State} (h : Config.txDepth ≤ s.txq.length) : readTimedIssue s = s :=
  if_pos (decide_eq_true h)

/-- Settles O27: room in TXQ, and a full TXQ. -/
theorem timedReadIssues : Obligations.TimedReadIssues := by
  intro s hacc hp he ha
  rw [exec_readWord_accepting hacc hp (by simp [he]) ha, if_pos he]
  exact ⟨fun h => by rw [readTimedIssue_of_room h], fun h => by rw [readTimedIssue_of_full h]⟩

end Sys2Proof.Machine

/-! The micro-steps as whole transitions (43_timed_coprocessor.md R184 to R188). -/
namespace Sys2Proof.Machine

theorem strobeRe_of_owner {s : State} (h : s.reOwner = .cp) (b : Bool) (u : Word3) :
    strobeRe b u s = { driveLines .cp (.ctrl (.only .re) b) s with cpState := u } := by
  rcases strobeRe_cases b u s with ⟨-, hend⟩ | ⟨ho, -⟩
  · exact hend
  · rw [h] at ho; cases ho

/-- U1 (R184): the falling edge causes no reaction. -/
theorem exec_uReAssert_owner {s : State} (hf : s.faulted = false) (ho : s.reOwner = .cp) (hd : StrobesDriven s)
    (hc : s.cpState = 1#3) : exec .uReAssert s = .next { s with
      out := { s.out with re := false }, cpState := 2#3
      trace := s.trace ++ [⟨.cp, .lvl (.ctrl (.only .re) false)⟩], draws := s.draws + 4 } := by
  rw [exec_uReAssert_run s hf hc, strobeRe_of_owner ho, driveLines_re_assert hd]

/-- U4 (R187): the rising edge advances `RDCNT`. -/
theorem exec_uReDeassert_owner {s : State} (hf : s.faulted = false) (ho : s.reOwner = .cp) (hd : StrobesDriven s)
    (hc : s.cpState = 4#3) (hre : s.out.re = false) : exec .uReDeassert s = .next { s with
      out := { s.out with re := true }, cpState := 5#3, rdcnt := s.rdcnt + 1
      trace := s.trace ++ [⟨.cp, .lvl (.ctrl (.only .re) true)⟩], draws := s.draws + 4 } := by
  rw [exec_uReDeassert_run s hf hc, strobeRe_of_owner ho, driveLines_re_deassert hd hre]

/-- Settles O30: the two edges of the owner's strobe. -/
theorem readEnableStrobe : Obligations.ReadEnableStrobe :=
  fun _ hf ho hd => ⟨fun hc => ⟨_, exec_uReAssert_owner hf ho hd hc⟩,
    fun hc hre => ⟨_, exec_uReDeassert_owner hf ho hd hc hre⟩⟩

/-- U3 during the read strobe (R186): the word is the cartridge's next. -/
theorem exec_uSample_read {s : State} (hf : s.faulted = false) (hc : s.cpState = 3#3) (hdir : s.dir.re = true)
    (hre : s.out.re = false) (had : s.dir.ad = 0#16) : exec .uSample s = .next { s with
      cpW := some (s.cart.head?.getD (s.cartWord s.draws)), cpState := 4#3, cart := s.cart.tail, draws := s.draws + 1
      trace := s.trace ++ [⟨.cp, .smp (s.cart.head?.getD (s.cartWord s.draws))⟩] } := by
  rw [exec_uSample_run s hf hc, sampleToCpW_read hdir hre had, sampleWord_read hdir hre had]

/-- Settles O32: a sample is one event, and during the read strobe the cartridge's word. -/
theorem sampleStepHoldsTheWord : Obligations.SampleStepHoldsTheWord :=
  fun s hf hc => ⟨⟨_, _, _, exec_uSample_run s hf hc⟩,
    fun hd hre had => ⟨_, _, cartridgeGives_next s s.draws, exec_uSample_read hf hc hd.1 hre had⟩⟩

theorem rxFull_of_room {s : State} (h : s.rxq.length < Config.rxDepth) : s.rxFull = false := by
  simp [State.rxFull, h]

/-- Settles O33: room and a word, a full RXQ, and room with `CP_W = ⊥`. -/
theorem pushDeliversTheWord : Obligations.PushDeliversTheWord := by
  intro s hf hc
  rw [exec_uPush_run s hf hc]
  refine ⟨fun hroom w hw => ?_, fun hfull => ?_, fun hroom hw => ⟨Config.freeCpW s.draws, s.draws + 1, ?_⟩⟩
  · rw [pushCpW_some (rxFull_of_room hroom) hw]; rfl
  · rw [pushCpW_full (decide_eq_true hfull)]
  · rw [pushCpW_none (rxFull_of_room hroom) hw]; rfl

end Sys2Proof.Machine

/-! What a performed instruction leaves, one case per effect, and the rules that hold of every instruction. -/
namespace Sys2Proof.Machine

/-- `s` with new values of what the cartridge's reactions and the draws change. -/
def State.reacted (s : State) (h l : Word16) (k n : Nat) : State :=
  { s with latchH := h, latchL := l, rdcnt := k, draws := n }

/-- `t` is the end of an effect that instruction `i` has in `s`, its checks passed and no fault of a `Drive` in it, but for
SET_ADDRESS's second `Drive` by a Host that does not own RE, which faults after an event. The latches, `RDCNT`, the draws and
the sampled words are left free. -/
inductive Performed (s : State) : Instr → State → Prop
  | initPins (hready : s.hostPhase = .ready) (hpins : s.pinsReady = false) (h l : Word16) (k n : Nat) :
      Performed s .initPins { s.reacted h l k n with
        pinsReady := true, dir := ⟨0#16, true, true, true, true, Config.rstInitOutput⟩
        out := ⟨s.out.ad, true, true, true, true, Config.rstInitLevel⟩, trace := s.trace ++ initPinsEvents }
  | selectPolled (hready : s.hostPhase = .ready) (hpins : s.pinsReady = true) (hengine : s.engine = .none) :
      Performed s (.initEngine 0#1) { s with engine := .polled }
  | startTimed (hready : s.hostPhase = .ready) (hpins : s.pinsReady = true) (hengine : s.engine = .none)
      (h l : Word16) (k n : Nat) :
      Performed s (.initEngine 1#1) { s.reacted h l k n with
        engine := .timed, reOwner := .cp, txq := [], rxq := [], cpW := none, cpState := 0#3
        out := { s.out with re := true }, trace := s.trace ++ [⟨.cp, .lvl (.ctrl (.only .re) true)⟩] }
  | setAddress (a : Word32) (hready : s.hostPhase = .ready) (hpins : s.pinsReady = true)
      (hre : s.engine = .timed ∨ s.reOwner = .host) (h l : Word16) (k n : Nat) :
      Performed s (.setAddress a) { s.reacted h l k n with
        dir := { s.dir with ad := 0#16 }
        out := { s.out.putCtrl (inactiveGroup s.engine) true with ad := addrLow a, alel := true, aleh := true }
        addrSet := true, trace := s.trace ++ setAddressEvents s.engine a }
  | setAddressConflict (a : Word32) (hpins : s.pinsReady = true) (hengine : s.engine ≠ .timed) (hown : s.reOwner = .cp) :
      Performed s (.setAddress a)
        (raiseFault .busConflict (setAddressWord a) (cfg .host (.ad 0x0000#16) .output s))
  | issueTimed (hready : s.hostPhase = .ready) (haddr : s.addrSet = true) (hengine : s.engine = .timed) :
      Performed s .readWord { s with txq := s.txq ++ [.trig], hostPhase := .waitWord }
  | readPolled (hpins : s.pinsReady = true) (hengine : s.engine = .polled) (hown : s.reOwner = .host) (w : Word16)
      (c : List Word16) (h l : Word16) (k n : Nat) :
      Performed s .readWord { s.reacted h l k n with
        rdData := some w, out := { s.out with re := true }, cart := c, trace := s.trace ++ readEvents .host w }
  | takeTrigger (hcp : s.cpState = 0#3) (q : Trigger) (rest : List Trigger) (htxq : s.txq = q :: rest) :
      Performed s .uWaitTrig { s with txq := rest, cpState := 1#3 }
  | assertRe (hcp : s.cpState = 1#3) (hown : s.reOwner = .cp) (h l : Word16) (k n : Nat) :
      Performed s .uReAssert { s.reacted h l k n with
        cpState := 2#3, out := { s.out with re := false }
        trace := s.trace ++ [⟨.cp, .lvl (.ctrl (.only .re) false)⟩] }
  | hold (hcp : s.cpState = 2#3) : Performed s .uHold { s with cpState := 3#3 }
  | sample (hcp : s.cpState = 3#3) (w : Word16) (c : List Word16) (n : Nat) :
      Performed s .uSample { s with
        cpW := some w, cpState := 4#3, cart := c, draws := n, trace := s.trace ++ [⟨.cp, .smp w⟩] }
  | deassertRe (hcp : s.cpState = 4#3) (hown : s.reOwner = .cp) (h l : Word16) (k n : Nat) :
      Performed s .uReDeassert { s.reacted h l k n with
        cpState := 5#3, out := { s.out with re := true }
        trace := s.trace ++ [⟨.cp, .lvl (.ctrl (.only .re) true)⟩] }
  | push (hcp : s.cpState = 5#3) (w : Word16) (n : Nat) (hw : ∀ v, s.cpW = some v → w = v) :
      Performed s .uPush { s with rxq := s.rxq ++ [w], cpState := 0#3, draws := n }

/-- The end of one `Drive` of RE, in the terms of `Performed`. -/
theorem driveLines_re_reacted (ag : Agent) (b : Bool) (s : State) :
    driveLines ag (.ctrl (.only .re) b) s =
      { s.reacted (driveLines ag (.ctrl (.only .re) b) s).latchH (driveLines ag (.ctrl (.only .re) b) s).latchL
          (driveLines ag (.ctrl (.only .re) b) s).rdcnt (s.draws + 4) with
        out := { s.out with re := b }, trace := s.trace ++ [⟨ag, .lvl (.ctrl (.only .re) b)⟩] } := rfl

theorem performed_initPins {s : State} (hready : s.hostPhase = .ready) (hpins : s.pinsReady = false) :
    Performed s .initPins (initPinsEffect s) := by
  rw [initPinsEffect_eq]
  exact .initPins hready hpins (cfg .host (.ctrl .ctrl4 true) .output s).latchH
    (cfg .host (.ctrl .ctrl4 true) .output s).latchL (cfg .host (.ctrl .ctrl4 true) .output s).rdcnt (s.draws + 12)

theorem performed_startTimed {s : State} (hready : s.hostPhase = .ready) (hpins : s.pinsReady = true)
    (hengine : s.engine = .none) :
    Performed s (.initEngine 1#1) (startCoprocessor (initEngineWord 1#1) s).final := by
  rw [startCoprocessor_final, driveLines_re_reacted]
  exact .startTimed hready hpins hengine _ _ _ _

theorem performed_setAddress {s : State} (hready : s.hostPhase = .ready) (hpins : s.pinsReady = true) (a : Word32) :
    Performed s (.setAddress a) (setAddressEffect a s).final := by
  by_cases hre : s.engine = .timed ∨ s.reOwner = .host
  · rw [setAddressEffect_completes hre]
    generalize latchAddress a (addressBusDriven s) = t
    exact .setAddress a hready hpins hre t.latchH t.latchL t.rdcnt (s.draws + 36)
  · obtain ⟨hengine, hhost⟩ := not_or.1 hre
    rcases setAddressEffect_final a s with ⟨-, hown, hfault⟩ | ⟨hgroup | hown, -⟩
    · rw [hfault]
      exact .setAddressConflict a hpins hengine hown
    · cases he : s.engine <;> simp_all [inactiveGroup]
    · exact absurd hown hhost

theorem performed_readPolled {s : State} (hpins : s.pinsReady = true) (hengine : s.engine = .polled) :
    (∃ k c, (readPolled s).final = raiseFault k c s) ∨ Performed s .readWord (readPolled s).final := by
  rcases readPolled_cases s with ⟨hown, hend⟩ | ⟨-, hfault⟩
  · generalize hlow : driveLines .host (.ctrl (.only .re) false) s = low at hend
    generalize ht : driveLines .host (.ctrl (.only .re) true) (sampleStep .host low) = t at hend
    have hpins' : PinsOnly s t := by
      rw [← ht, ← hlow]
      exact ((driveLines_pinsOnly _ _ _).trans (sampleStep_pinsOnly _ _)).trans (driveLines_pinsOnly _ _ _)
    have hdir : t.dir = s.dir := by simp [← ht, ← hlow]
    have hout : t.out = { s.out with re := true } := by simp [← ht, ← hlow, put_re]
    have htrace : t.trace = s.trace ++ readEvents .host low.sampleWord := by simp [← ht, ← hlow, readEvents]
    rw [hend, hpins', hdir, hout, htrace]
    exact .inr (.readPolled hpins hengine hown low.sampleWord t.cart t.latchH t.latchL t.rdcnt t.draws)
  · exact .inl ⟨_, _, hfault⟩

/-- All a command can do: nothing, a fault that changes nothing else, or its effect. -/
theorem exec_command_outcomes {i : Instr} {s t : State} (hi : i.agent = .host) (h : exec i s = .next t) :
    t = s ∨ (s.faulted = false ∧ ((∃ k c, t = raiseFault k c s) ∨ Performed s i t)) := by
  rcases exec_command_cases i s t hi h with rfl | ⟨k, c, hf, rfl⟩ | ⟨hf, hready, ⟨rfl, hpins, rfl⟩ |
    ⟨rfl, hpins, hengine, rfl⟩ | ⟨rfl, hpins, hengine, rfl⟩ | ⟨a, rfl, hpins, rfl⟩ |
    ⟨rfl, hpins, haddr, hengine, rfl⟩ | ⟨rfl, hpins, haddr, hengine, rfl⟩⟩
  · exact .inl rfl
  · exact .inr ⟨hf, .inl ⟨k, c, rfl⟩⟩
  · exact .inr ⟨hf, .inr (performed_initPins hready hpins)⟩
  · exact .inr ⟨hf, .inr (.selectPolled hready hpins hengine)⟩
  · exact .inr ⟨hf, .inr (performed_startTimed hready hpins hengine)⟩
  · exact .inr ⟨hf, .inr (performed_setAddress hready hpins a)⟩
  · by_cases hfull : Config.txDepth ≤ s.txq.length
    · exact .inl (readTimedIssue_of_full hfull)
    · rw [readTimedIssue_of_room (Nat.lt_of_not_le hfull)]
      exact .inr ⟨hf, .inr (.issueTimed hready haddr hengine)⟩
  · exact .inr ⟨hf, performed_readPolled hpins hengine⟩

/-- All a micro-step can do: nothing, the fault of a co-processor that does not own RE, or its effect. -/
theorem exec_microStep_outcomes {i : Instr} {s t : State} (hi : i.agent = .cp) (h : exec i s = .next t) :
    t = s ∨ (s.faulted = false ∧ ((s.reOwner = .host ∧ (s.cpState = 1#3 ∨ s.cpState = 4#3) ∧
      ∃ k c, t = raiseFault k c s) ∨ Performed s i t)) := by
  rcases exec_microStep_cases i s t hi h with rfl | ⟨hf, ⟨rfl, hcp, q, rest, htxq, rfl⟩ | ⟨rfl, hcp, rfl⟩ |
    ⟨rfl, hcp, rfl⟩ | ⟨rfl, hcp, rfl⟩ | ⟨rfl, hcp, rfl⟩ | ⟨rfl, hcp, w, n, hw, rfl⟩⟩
  · exact .inl rfl
  · exact .inr ⟨hf, .inr (.takeTrigger hcp q rest htxq)⟩
  · rcases strobeRe_cases false 2#3 s with ⟨hown, hend⟩ | ⟨hown, hfault⟩
    · rw [hend, driveLines_re_reacted]
      exact .inr ⟨hf, .inr (.assertRe hcp hown _ _ _ _)⟩
    · exact .inr ⟨hf, .inl ⟨hown, .inl hcp, _, _, hfault⟩⟩
  · exact .inr ⟨hf, .inr (.hold hcp)⟩
  · exact .inr ⟨hf, .inr (.sample hcp s.sampleWord (sampleStep .cp s).cart (s.draws + 1))⟩
  · rcases strobeRe_cases true 5#3 s with ⟨hown, hend⟩ | ⟨hown, hfault⟩
    · rw [hend, driveLines_re_reacted]
      exact .inr ⟨hf, .inr (.deassertRe hcp hown _ _ _ _)⟩
    · exact .inr ⟨hf, .inl ⟨hown, .inr hcp, _, _, hfault⟩⟩
  · exact .inr ⟨hf, .inr (.push hcp w n fun v hv => (hw v hv).1)⟩

/-- All an instruction can do. -/
theorem exec_outcomes {i : Instr} {s t : State} (h : exec i s = .next t) :
    t = s ∨ (s.faulted = false ∧ ((∃ k c, t = raiseFault k c s) ∨ Performed s i t)) := by
  cases hi : i.agent with
  | host => exact exec_command_outcomes hi h
  | cp =>
    rcases exec_microStep_outcomes hi h with hsame | ⟨hf, ⟨-, -, hfault⟩ | hperf⟩
    · exact .inl hsame
    · exact .inr ⟨hf, .inl hfault⟩
    · exact .inr ⟨hf, .inr hperf⟩

/-! Rules of every instruction: directions, ownership, initialisation, `RD_DATA` and the queues. -/

theorem Performed.dir_of_cp {i : Instr} {s t : State} (h : Performed s i t) (hi : i.agent = .cp) : t.dir = s.dir := by
  cases h
  case takeTrigger | assertRe | hold | sample | deassertRe | push => rfl
  all_goals cases hi

theorem Performed.reOwner_cp {i : Instr} {s t : State} (h : Performed s i t) (ho : s.reOwner = .cp) :
    t.reOwner = .cp := by
  cases h
  case startTimed => rfl
  all_goals exact ho

/-- Settles O35: no effect of a micro-step changes `DIR`, and none of any instruction gives RE back. -/
theorem coprocNeverChangesDirections : Obligations.CoprocNeverChangesDirections := by
  intro i s t h
  rcases exec_outcomes h with rfl | ⟨-, ⟨k, c, rfl⟩ | hperf⟩
  · exact ⟨fun _ => rfl, id⟩
  · exact ⟨fun _ => rfl, id⟩
  · exact ⟨hperf.dir_of_cp, hperf.reOwner_cp⟩

/-- Of the effects only a Polled read's writes `RD_DATA` (10_state.md R30). -/
theorem Performed.rdData {i : Instr} {s t : State} (h : Performed s i t) :
    t.rdData = s.rdData ∨ (i = .readWord ∧ s.engine = .polled) := by
  cases h
  case readPolled hpins hengine hown w c h l k n => exact .inr ⟨rfl, hengine⟩
  all_goals exact .inl rfl

theorem exec_rdData {i : Instr} {s t : State} (h : exec i s = .next t) :
    t.rdData = s.rdData ∨ (i = .readWord ∧ s.engine = .polled) := by
  rcases exec_outcomes h with rfl | ⟨-, ⟨k, c, rfl⟩ | hperf⟩
  · exact .inl rfl
  · exact .inl rfl
  · exact hperf.rdData

/-- A step writes `RD_DATA` in a completion, or in the issue of READ_WORD's one word. -/
theorem step_rdData {s t : State} (h : step s = .next t) : t.rdData = s.rdData ∨
    (∃ ts, s.sched = .complete :: ts ∧ s.hostPhase = .waitWord ∧ t.hostPhase = .ready ∧
      ∃ w rest, s.rxq = w :: rest ∧ t.rdData = some w) ∨
    (∃ ts cs, s.sched = .issue :: ts ∧ s.cmds = readWordWord :: cs) := by
  rcases step_cases s t h with ⟨-, rfl⟩ | ⟨-, ⟨-, rfl⟩ | ⟨u, ts, hs, rfl | ⟨rfl, c, cs, hc, hissue⟩ |
    ⟨rfl, hphase, w, rest, hq, rfl⟩ | ⟨rfl, i, hd, hexec⟩⟩⟩
  · exact .inl rfl
  · exact .inl rfl
  · exact .inl rfl
  · rcases hissue with ⟨-, rfl⟩ | ⟨i, hd, hexec⟩
    · exact .inl rfl
    · refine (exec_rdData hexec).imp_right ?_
      rintro ⟨rfl, -⟩
      cases decodeCommand_eq_ok_iff.1 hd
      exact .inr ⟨ts, cs, hs, hc⟩
  · exact .inr (.inl ⟨ts, hs, hphase, rfl, w, rest, hq, rfl⟩)
  · refine (exec_rdData hexec).imp_right ?_
    rintro ⟨rfl, -⟩
    cases decodeMicro_agent _ _ hd

/-- Settles O51: of the effects only a Polled read's, and of the turns besides only a completion, write `RD_DATA`. -/
theorem onlyReadsWriteRdData : Obligations.OnlyReadsWriteRdData := by
  refine ⟨fun i s t h hne => ?_, fun s t h hne => (step_rdData h).resolve_left hne⟩
  obtain ⟨hi, hengine⟩ := (exec_rdData h).resolve_left hne
  exact ⟨hi, by simp [hengine]⟩

theorem Performed.txq {i : Instr} {s t : State} (h : Performed s i t) :
    t.txq = s.txq ∨ (i = .readWord ∧ t.txq = s.txq ++ [.trig]) ∨ (i = .uWaitTrig ∧ ∃ q, s.txq = q :: t.txq) ∨
      (i = .initEngine 1#1 ∧ t.txq = []) := by
  cases h
  case issueTimed => exact .inr (.inl ⟨rfl, rfl⟩)
  case takeTrigger q rest htxq => exact .inr (.inr (.inl ⟨rfl, q, htxq⟩))
  case startTimed => exact .inr (.inr (.inr ⟨rfl, rfl⟩))
  all_goals exact .inl rfl

theorem Performed.rxq {i : Instr} {s t : State} (h : Performed s i t) :
    t.rxq = s.rxq ∨ (i = .uPush ∧ ∃ w, (∀ v, s.cpW = some v → w = v) ∧ t.rxq = s.rxq ++ [w]) ∨
      (i = .initEngine 1#1 ∧ t.rxq = []) := by
  cases h
  case push hcp w n hw => exact .inr (.inl ⟨rfl, w, hw, rfl⟩)
  case startTimed => exact .inr (.inr ⟨rfl, rfl⟩)
  all_goals exact .inl rfl

/-- All a completion can do: nothing, or take the oldest word of RXQ (R182). -/
theorem completeReadWord_cases (s : State) : completeReadWord s = s ∨
    (s.faulted = false ∧ s.hostPhase = .waitWord ∧ ∃ w rest, s.rxq = w :: rest ∧
      completeReadWord s = { s with rxq := rest, rdData := some w, hostPhase := .ready }) := by
  by_cases hp : s.hostPhase = .waitWord
  · rcases Bool.eq_false_or_eq_true s.faulted with hf | hf
    · exact .inl (if_pos (.inl hf))
    · cases hq : s.rxq with
      | nil => exact .inl (completeReadWord_of_empty hq)
      | cons w rest => exact .inr ⟨hf, hp, w, rest, rfl, completeReadWord_of_word hf hp hq⟩
  · exact .inl (completeReadWord_of_not_waiting hp)

/-- Settles O52: the effects on each queue one by one, and the completion's two outcomes. -/
theorem queuesAreFifo : Obligations.QueuesAreFifo := by
  refine ⟨fun i s t h => ?_, fun s => ?_⟩
  · rcases exec_outcomes h with rfl | ⟨-, ⟨k, c, rfl⟩ | hperf⟩
    · exact ⟨.inl rfl, .inl rfl⟩
    · exact ⟨.inl rfl, .inl rfl⟩
    · exact ⟨hperf.txq, hperf.rxq⟩
  · rcases completeReadWord_cases s with hsame | ⟨-, -, w, rest, hq, hend⟩
    · exact ⟨by rw [hsame], .inl hsame⟩
    · exact ⟨by rw [hend], .inr ⟨w, by rw [hend, hq], by rw [hend]⟩⟩

end Sys2Proof.Machine

/-! The block's invariant (43_timed_coprocessor.md R192, 70_reset_and_hazards.md R246): the state after reset has it, and every
effect, fault and completion keeps it. -/
namespace Sys2Proof.Machine

/-! All a step can do, over the state whose lists of words and turns it has used up. -/

/-- `t` is how a turn ends in `p`. -/
inductive TurnEnd (p : State) : State → Prop
  | idle : TurnEnd p p
  | fault (k : FaultCode) (c : Word40) : TurnEnd p (raiseFault k c p)
  | performed {t : State} (i : Instr) (hperf : Performed p i t) : TurnEnd p t
  | completed (hwait : p.hostPhase = .waitWord) (w : Word16) (rest : List Word16) (hrxq : p.rxq = w :: rest) :
      TurnEnd p { p with rxq := rest, rdData := some w, hostPhase := .ready }

theorem turnEnd_of_exec {i : Instr} {p t : State} (h : exec i p = .next t) : TurnEnd p t := by
  rcases exec_outcomes h with rfl | ⟨-, ⟨k, c, rfl⟩ | hperf⟩
  · exact .idle
  · exact .fault k c
  · exact .performed i hperf

theorem step_outcomes {s t : State} (h : step s = .next t) :
    t = s ∨ (s.faulted = false ∧ ∃ ts cs, TurnEnd { s with sched := ts, cmds := cs } t) := by
  rcases step_cases s t h with ⟨-, rfl⟩ | ⟨hf, ⟨-, rfl⟩ | ⟨u, ts, -, rfl | ⟨-, c, cs, -, ⟨-, rfl⟩ | ⟨i, -, hexec⟩⟩ |
    ⟨-, hwait, w, rest, hrxq, rfl⟩ | ⟨-, i, -, hexec⟩⟩⟩
  · exact .inl rfl
  · exact .inl rfl
  · exact .inr ⟨hf, ts, s.cmds, .idle⟩
  · exact .inr ⟨hf, ts, cs, .fault _ _⟩
  · exact .inr ⟨hf, ts, cs, turnEnd_of_exec hexec⟩
  · exact .inr ⟨hf, ts, s.cmds, .completed (p := { s with sched := ts }) hwait w rest hrxq⟩
  · exact .inr ⟨hf, ts, s.cmds, turnEnd_of_exec hexec⟩

/-! What the invariant says of the phases of a Timed read. -/

theorem Inv.timed_of_waitWord {s : State} (h : Inv s) (hwait : s.hostPhase = .waitWord) : s.engine = .timed := by
  by_contra hne
  obtain ⟨-, -, -, -, hready⟩ := h.notTimed hne
  rw [hwait] at hready; cases hready

theorem Inv.pinsReady_of_timed {s : State} (h : Inv s) (he : s.engine = .timed) : s.pinsReady = true := by
  by_contra hne
  obtain ⟨hnone, -⟩ := h.unready (Bool.eq_false_iff.2 hne)
  rw [he] at hnone; cases hnone

/-- A co-processor at U1 to U5 belongs to a Timed read in progress, both queues empty (R192, second case). -/
theorem Inv.reading {s : State} (h : Inv s) (hlo : 1 ≤ s.cpState.toNat) (hhi : s.cpState.toNat ≤ 5) :
    s.engine = .timed ∧ s.hostPhase = .waitWord ∧ s.txq = [] ∧ s.rxq = [] := by
  have hU0 : s.cpState ≠ 0#3 := fun hc => by rw [hc] at hlo; cases hlo
  have he : s.engine = .timed := by
    by_contra hne
    obtain ⟨hoff, -⟩ := h.notTimed hne
    rw [hoff] at hhi; exact absurd hhi (by decide)
  cases hp : s.hostPhase with
  | ready => exact absurd (h.timedIdle he hp).1 hU0
  | waitWord =>
    obtain ⟨-, ⟨-, hc, -⟩ | ⟨htxq, -, -, hrxq⟩ | ⟨-, hc, -⟩⟩ := h.timedBusy hp
    · exact absurd hc hU0
    · exact ⟨he, rfl, htxq, hrxq⟩
    · exact absurd hc hU0

/-- RE's level by the micro-step, with the Timed engine (R246). -/
theorem Inv.out_re {s : State} (h : Inv s) (he : s.engine = .timed) {u : Word3} (hcp : s.cpState = u) :
    s.out.re = !decide (2 ≤ u.toNat ∧ u.toNat ≤ 4) := by
  rw [h.reLevel (h.pinsReady_of_timed he), reStrobed, hcp]

/-- In OFF RE is not strobed, so it rests at 1. -/
theorem reLevel_of_off {s : State} (hoff : s.cpState = 7#3) (hre : s.out.re = true) : s.out.re = !reStrobed s := by
  rw [reStrobed, hoff, hre]; rfl

/-! Every way a turn ends keeps the invariant. -/

/-- The invariant reads none of the model's own lists of words and turns. -/
theorem Inv.withLists {s : State} (h : Inv s) (ts : List Turn) (cs : List Word40) :
    Inv { s with sched := ts, cmds := cs } :=
  ⟨h.noFault, h.faultRecord, h.unready, h.pinDirs, h.pinLevels, h.reLevel, h.notTimed, h.timedOwner, h.timedIdle,
    h.timedBusy, h.sampled⟩

theorem code_bounds (k : FaultCode) : 1 ≤ k.code.toNat ∧ k.code.toNat ≤ 7 := by
  cases k <;> decide

theorem Inv.raiseFault {s : State} (h : Inv s) (k : FaultCode) (c : Word40) : Inv (raiseFault k c s) :=
  { noFault := nofun
    faultRecord := fun _ => ⟨(code_bounds k).1, (code_bounds k).2, rfl⟩
    unready := h.unready, pinDirs := h.pinDirs, pinLevels := h.pinLevels, reLevel := h.reLevel
    notTimed := h.notTimed, timedOwner := h.timedOwner, timedIdle := h.timedIdle, timedBusy := h.timedBusy
    sampled := h.sampled }

/-- What no micro-step, issue or completion of a Timed read touches: the fault record, the flags, the directions and the
resting control levels. -/
def State.setup (s : State) :
    (Bool × Word4 × Option Word40) × (Bool × Engine × Bool × Agent) × Lines × (Bool × Bool × Bool) :=
  ((s.faulted, s.fcode, s.fcmd), (s.pinsReady, s.engine, s.addrSet, s.reOwner), s.dir,
    (s.out.we, s.out.alel, s.out.aleh))

theorem addrSet_of_setup {s t : State} (h : t.setup = s.setup) : t.addrSet = s.addrSet := by
  simp only [State.setup, Prod.mk.injEq] at h
  obtain ⟨-, ⟨-, -, haddr, -⟩, -⟩ := h
  exact haddr

/-- What a move of a Timed read has to show: RE's level, the phase it leads to, and the sampled word. -/
theorem Inv.of_timed {s t : State} (h : Inv s) (hsame : t.setup = s.setup) (he : s.engine = .timed) {u : Word3}
    (hcp : t.cpState = u) (hre : t.out.re = !decide (2 ≤ u.toNat ∧ u.toNat ≤ 4))
    (hidle : t.hostPhase = .ready → CoprocIdle t)
    (hbusy : t.hostPhase = .waitWord → t.addrSet = true ∧ (TriggerWaits t ∨ ReadInProgress t ∨ WordWaits t))
    (hsampled : 4 ≤ u.toNat → u.toNat ≤ 5 → t.cpW.isSome = true) : Inv t := by
  subst hcp
  simp only [State.setup, Prod.mk.injEq] at hsame
  obtain ⟨⟨hfaulted, hfcode, hfcmd⟩, ⟨hpins, hengine, haddr, hown⟩, hdir, hwe, halel, haleh⟩ := hsame
  exact
    { noFault := by rw [hfaulted, hfcode, hfcmd]; exact h.noFault
      faultRecord := by rw [hfaulted, hfcode, hfcmd]; exact h.faultRecord
      unready := by rw [hpins, hengine, haddr]; exact h.unready
      pinDirs := by rw [hpins, StrobesDriven, hdir]; exact h.pinDirs
      pinLevels := by rw [hpins, hwe, halel, haleh]; exact h.pinLevels
      reLevel := fun _ => hre
      notTimed := fun hne => absurd (hengine.trans he) hne
      timedOwner := fun _ => hown.trans (h.timedOwner he)
      timedIdle := fun _ => hidle
      timedBusy := hbusy
      sampled := hsampled }

/-- A micro-step of a read in progress, from U1 to U4, leads to the next one. -/
theorem Inv.of_microStep {s t : State} (h : Inv s) (hsame : t.setup = s.setup) (hphase : t.hostPhase = s.hostPhase)
    (htxq : t.txq = s.txq) (hrxq : t.rxq = s.rxq) {u v : Word3} (hu : s.cpState = u) (hv : t.cpState = v)
    (hmove : 1 ≤ u.toNat ∧ u.toNat ≤ 4 ∧ v.toNat = u.toNat + 1)
    (hre : t.out.re = !decide (2 ≤ v.toNat ∧ v.toNat ≤ 4)) (hsampled : 4 ≤ v.toNat → t.cpW.isSome = true) : Inv t := by
  subst hu hv
  obtain ⟨hlo, hhi, hnext⟩ := hmove
  obtain ⟨he, hwait, hempty, hnone⟩ := h.reading hlo (by omega)
  refine h.of_timed hsame he rfl hre (fun hready => ?_) (fun _ => ⟨?_, .inr (.inl ⟨?_, ?_, ?_, ?_⟩)⟩)
    fun hge _ => hsampled hge
  · exact nomatch hwait.symm.trans (hphase.symm.trans hready)
  · exact (addrSet_of_setup hsame).trans (h.timedBusy hwait).1
  · exact htxq.trans hempty
  · omega
  · omega
  · exact hrxq.trans hnone

/-- U0 with a trigger belongs to a Timed read just issued (R192, first case). -/
theorem Inv.triggered {s : State} (h : Inv s) {q : Trigger} {rest : List Trigger} (htxq : s.txq = q :: rest) :
    s.engine = .timed ∧ s.hostPhase = .waitWord ∧ s.addrSet = true ∧ rest = [] ∧ s.rxq = [] := by
  have hne : s.txq ≠ [] := by rw [htxq]; nofun
  have he : s.engine = .timed := by
    by_contra hoff
    obtain ⟨-, hempty, -⟩ := h.notTimed hoff
    exact hne hempty
  cases hp : s.hostPhase with
  | ready =>
    obtain ⟨-, hempty, -⟩ := h.timedIdle he hp
    exact absurd hempty hne
  | waitWord =>
    obtain ⟨haddr, ⟨htrig, -, hrxq⟩ | ⟨hempty, -⟩ | ⟨hempty, -⟩⟩ := h.timedBusy hp
    · rw [htxq] at htrig
      exact ⟨he, rfl, haddr, (List.cons.inj htrig).2, hrxq⟩
    · exact absurd hempty hne
    · exact absurd hempty hne

theorem Performed.inv {i : Instr} {s t : State} (hperf : Performed s i t) (h : Inv s) : Inv t := by
  cases hperf with
  | initPins hready hpins =>
    obtain ⟨hnone, -⟩ := h.unready hpins
    obtain ⟨hoff, -⟩ := h.notTimed (by rw [hnone]; nofun)
    exact
      { noFault := h.noFault, faultRecord := h.faultRecord, unready := nofun
        pinDirs := fun _ => ⟨⟨rfl, rfl, rfl⟩, rfl, rfl⟩, pinLevels := fun _ => ⟨rfl, rfl, rfl⟩
        reLevel := fun _ => reLevel_of_off hoff rfl
        notTimed := h.notTimed, timedOwner := h.timedOwner, timedIdle := h.timedIdle, timedBusy := h.timedBusy
        sampled := h.sampled }
  | selectPolled hready hpins hengine =>
    exact
      { noFault := h.noFault, faultRecord := h.faultRecord, unready := fun hno => nomatch hpins.symm.trans hno
        pinDirs := h.pinDirs, pinLevels := h.pinLevels, reLevel := h.reLevel
        notTimed := fun _ => h.notTimed (by rw [hengine]; nofun)
        timedOwner := nofun, timedIdle := nofun, timedBusy := h.timedBusy, sampled := h.sampled }
  | startTimed hready hpins hengine =>
    exact
      { noFault := h.noFault, faultRecord := h.faultRecord, unready := fun hno => nomatch hpins.symm.trans hno
        pinDirs := h.pinDirs, pinLevels := h.pinLevels, reLevel := fun _ => rfl
        notTimed := fun hne => absurd rfl hne, timedOwner := fun _ => rfl, timedIdle := fun _ _ => ⟨rfl, rfl, rfl⟩
        timedBusy := fun hwait => nomatch hready.symm.trans hwait
        sampled := fun hge => absurd hge (by simp) }
  | setAddress a hready hpins hre =>
    obtain ⟨hdriven, hwe, -⟩ := h.pinDirs hpins
    have hlevels : (s.out.putCtrl (inactiveGroup s.engine) true).we = true ∧
        (s.out.putCtrl (inactiveGroup s.engine) true).re = !reStrobed s := by
      cases he : s.engine with
      | timed => exact ⟨rfl, h.reLevel hpins⟩
      | none | polled =>
        obtain ⟨hoff, -⟩ := h.notTimed (by rw [he]; nofun)
        exact ⟨rfl, by rw [reStrobed, hoff]; rfl⟩
    exact
      { noFault := h.noFault, faultRecord := h.faultRecord, unready := fun hno => nomatch hpins.symm.trans hno
        pinDirs := fun _ => ⟨hdriven, hwe, rfl⟩, pinLevels := fun _ => ⟨hlevels.1, rfl, rfl⟩
        reLevel := fun _ => hlevels.2
        notTimed := h.notTimed, timedOwner := h.timedOwner, timedIdle := h.timedIdle
        timedBusy := fun hwait => nomatch hready.symm.trans hwait
        sampled := h.sampled }
  | setAddressConflict a hpins hengine hown =>
    obtain ⟨-, -, -, hhost, -⟩ := h.notTimed hengine
    exact nomatch hown.symm.trans hhost
  | issueTimed hready haddr hengine =>
    obtain ⟨hcp, htxq, hrxq⟩ := h.timedIdle hengine hready
    exact h.of_timed rfl hengine rfl (h.out_re hengine rfl) nofun
      (fun _ => ⟨haddr, .inl ⟨congrArg (· ++ [Trigger.trig]) htxq, hcp, hrxq⟩⟩) h.sampled
  | readPolled hpins hengine =>
    obtain ⟨hoff, -⟩ := h.notTimed (by rw [hengine]; nofun)
    exact
      { noFault := h.noFault, faultRecord := h.faultRecord, unready := h.unready, pinDirs := h.pinDirs
        pinLevels := h.pinLevels, reLevel := fun _ => reLevel_of_off hoff rfl
        notTimed := h.notTimed, timedOwner := h.timedOwner, timedIdle := h.timedIdle, timedBusy := h.timedBusy
        sampled := h.sampled }
  | takeTrigger hcp q rest htxq =>
    obtain ⟨he, hwait, haddr, hrest, hrxq⟩ := h.triggered htxq
    exact h.of_timed rfl he (u := 1#3) rfl
      ((h.out_re he hcp).trans rfl) (fun hready => nomatch hwait.symm.trans hready)
      (fun _ => ⟨haddr, .inr (.inl ⟨hrest, by simp, by simp, hrxq⟩)⟩) fun hge => absurd hge (by decide)
  | assertRe hcp hown =>
    exact h.of_microStep rfl rfl rfl rfl hcp (v := 2#3) rfl
      (by decide) rfl fun hge => absurd hge (by decide)
  | hold hcp =>
    obtain ⟨he, -⟩ := h.reading (by simp [hcp]) (by simp [hcp])
    exact h.of_microStep rfl rfl rfl rfl hcp (v := 3#3) rfl
      (by decide) ((h.out_re he hcp).trans rfl) fun hge => absurd hge (by decide)
  | sample hcp =>
    obtain ⟨he, -⟩ := h.reading (by simp [hcp]) (by simp [hcp])
    exact h.of_microStep rfl rfl rfl rfl hcp (v := 4#3) rfl
      (by decide) ((h.out_re he hcp).trans rfl) fun _ => rfl
  | deassertRe hcp hown =>
    exact h.of_microStep rfl rfl rfl rfl hcp (v := 5#3) rfl
      (by decide) rfl fun _ => h.sampled (by simp [hcp]) (by simp [hcp])
  | push hcp w n hw =>
    obtain ⟨he, hwait, htxq, hrxq⟩ := h.reading (by simp [hcp]) (by simp [hcp])
    exact h.of_timed rfl he (u := 0#3) rfl
      ((h.out_re he hcp).trans rfl) (fun hready => nomatch hwait.symm.trans hready)
      (fun _ => ⟨(h.timedBusy hwait).1, .inr (.inr ⟨htxq, rfl, by simp [hrxq]⟩)⟩) fun hge => absurd hge (by decide)

/-- The completion takes the one word that waits, and leaves the co-processor idle (R182, R192, third case). -/
theorem Inv.completed {s : State} (h : Inv s) (hwait : s.hostPhase = .waitWord) {w : Word16} {rest : List Word16}
    (hrxq : s.rxq = w :: rest) : Inv { s with rxq := rest, rdData := some w, hostPhase := .ready } := by
  have he := h.timed_of_waitWord hwait
  have hne : s.rxq ≠ [] := by rw [hrxq]; nofun
  obtain ⟨-, ⟨-, -, hempty⟩ | ⟨-, -, -, hempty⟩ | ⟨htxq, hcp, hone⟩⟩ := h.timedBusy hwait
  · exact absurd hempty hne
  · exact absurd hempty hne
  · have hrest : rest = [] := by
      rw [hrxq] at hone
      exact List.eq_nil_of_length_eq_zero (Nat.succ.inj hone)
    exact h.of_timed rfl he rfl (h.out_re he rfl)
      (fun _ => ⟨hcp, htxq, hrest⟩) nofun h.sampled

theorem TurnEnd.inv {p t : State} (hend : TurnEnd p t) (h : Inv p) : Inv t := by
  cases hend with
  | idle => exact h
  | fault k c => exact h.raiseFault k c
  | performed i hperf => exact hperf.inv h
  | completed hwait w rest hrxq => exact h.completed hwait hrxq

/-- Settles O40: each way a turn ends keeps the invariant, and the lists of words and turns are no part of it. -/
theorem stepKeepsInvariant : Obligations.StepKeepsInvariant := by
  intro s t hinv h
  rcases step_outcomes h with rfl | ⟨-, ts, cs, hend⟩
  · exact hinv
  · exact hend.inv (hinv.withLists ts cs)

/-- Settles O41: before INIT_PINS the block is in OFF with nothing set up; the unspecified lines are not read. -/
theorem resetHasInvariant : Obligations.ResetHasInvariant :=
  { noFault := fun _ => ⟨rfl, rfl⟩, faultRecord := nofun, unready := fun _ => ⟨rfl, rfl⟩, pinDirs := nofun
    pinLevels := nofun, reLevel := nofun, notTimed := fun _ => ⟨rfl, rfl, rfl, rfl, rfl⟩, timedOwner := nofun
    timedIdle := nofun, timedBusy := nofun, sampled := fun _ hle => absurd hle (by decide) }

/-- Settles O42: the fields of the state after reset. -/
theorem resetValues : Obligations.ResetValues :=
  ⟨rfl, rfl, rfl, rfl, rfl, rfl, rfl, rfl, rfl, rfl, rfl, rfl, rfl, rfl⟩

end Sys2Proof.Machine

/-! What the invariant gives of every step (43_timed_coprocessor.md R145, R189, R192), and what no step undoes. -/
namespace Sys2Proof.Machine

/-! Every instruction and every turn answers a next state. -/

theorem exec_next (i : Instr) (s : State) : ∃ t, exec i s = .next t := by
  cases i with
  | initPins | initEngine | setAddress | readWord => exact exec_command_next _ s rfl
  | _ => exact ⟨_, rfl⟩

theorem hostIssue_next (s : State) : ∃ t, hostIssue s = .next t := by
  unfold hostIssue
  split
  · exact ⟨_, rfl⟩
  · split
    · exact ⟨_, rfl⟩
    · split
      · exact ⟨_, rfl⟩
      · exact exec_next _ _

/-- The co-processor is stuck at `110` only (R189). -/
theorem coprocTurn_next {s : State} (h : s.cpState ≠ 6#3) : ∃ t, coprocTurn s = .next t := by
  unfold coprocTurn
  rcases cpState_cases s.cpState with hc | hc | hc | hc | hc | hc | hc | hc
  case inr.inr.inr.inr.inr.inr.inl => exact absurd hc h
  all_goals rw [hc]
  case inr.inr.inr.inr.inr.inr.inr => exact ⟨s, rfl⟩
  all_goals exact exec_next _ s

theorem step_next {s : State} (h : s.cpState ≠ 6#3) : ∃ t, step s = .next t := by
  unfold step
  split
  · exact ⟨s, rfl⟩
  · split
    · exact ⟨s, rfl⟩
    · next t ts _ =>
      cases t with
      | issue => exact hostIssue_next _
      | complete => exact ⟨_, rfl⟩
      | coproc => exact coprocTurn_next h

/-- With the Timed engine `CP_STATE` is one of U0 to U5. -/
theorem Inv.cpState_le {s : State} (h : Inv s) (he : s.engine = .timed) : s.cpState.toNat ≤ 5 := by
  cases hp : s.hostPhase with
  | ready =>
    obtain ⟨hcp, -⟩ := h.timedIdle he hp
    simp [hcp]
  | waitWord =>
    obtain ⟨-, ⟨-, hcp, -⟩ | ⟨-, -, hle, -⟩ | ⟨-, hcp, -⟩⟩ := h.timedBusy hp
    · simp [hcp]
    · exact hle
    · simp [hcp]

theorem Inv.off_iff {s : State} (h : Inv s) : s.cpState = 7#3 ↔ s.engine ≠ .timed := by
  refine ⟨fun hoff he => ?_, fun hne => (h.notTimed hne).1⟩
  have hle := h.cpState_le he
  rw [hoff] at hle
  exact absurd hle (by decide)

theorem Inv.cpState_ne_reserved {s : State} (h : Inv s) : s.cpState ≠ 6#3 := by
  intro hc
  have hne : s.engine ≠ .timed := fun he => by
    have hle := h.cpState_le he
    rw [hc] at hle
    exact absurd hle (by decide)
  exact nomatch hc.symm.trans (h.notTimed hne).1

/-- Settles O43: no arm of `exec` stops, and the one stuck turn is excluded by the invariant. -/
theorem everyStepIsTaken : Obligations.EveryStepIsTaken :=
  ⟨exec_next, fun _ h => ⟨step_next h.cpState_ne_reserved, h.cpState_ne_reserved, h.off_iff⟩⟩

/-! Micro-steps of a reachable state (60_exceptions.md R211). -/

theorem Performed.faultRecord_of_cp {i : Instr} {s t : State} (hperf : Performed s i t) (hi : i.agent = .cp) :
    t.faulted = s.faulted ∧ t.fcode = s.fcode ∧ t.fcmd = s.fcmd := by
  cases hperf
  case takeTrigger | assertRe | hold | sample | deassertRe | push => exact ⟨rfl, rfl, rfl⟩
  all_goals cases hi

/-- Settles O14: the one fault of a micro-step is that of a co-processor without RE, which is in OFF. -/
theorem microStepsRaiseNoFault : Obligations.MicroStepsRaiseNoFault := by
  intro s i hinv hi hf
  obtain ⟨t, ht⟩ := exec_next i s
  refine ⟨t, ht, ?_⟩
  rcases exec_microStep_outcomes hi ht with rfl | ⟨-, ⟨hown, hcp, -⟩ | hperf⟩
  · exact ⟨hf, rfl, rfl⟩
  · have hbounds : 1 ≤ s.cpState.toNat ∧ s.cpState.toNat ≤ 5 := by rcases hcp with hcp | hcp <;> simp [hcp]
    obtain ⟨he, -⟩ := hinv.reading hbounds.1 hbounds.2
    exact nomatch hown.symm.trans (hinv.timedOwner he)
  · obtain ⟨hfaulted, hrecord⟩ := hperf.faultRecord_of_cp hi
    exact ⟨hfaulted.trans hf, hrecord⟩

/-! The queues (R192). -/

theorem Inv.queues_le_one {s : State} (h : Inv s) : s.txq.length ≤ 1 ∧ s.rxq.length ≤ 1 := by
  by_cases he : s.engine = .timed
  · cases hp : s.hostPhase with
    | ready =>
      obtain ⟨-, htxq, hrxq⟩ := h.timedIdle he hp
      simp [htxq, hrxq]
    | waitWord =>
      obtain ⟨-, ⟨htxq, -, hrxq⟩ | ⟨htxq, -, -, hrxq⟩ | ⟨htxq, -, hrxq⟩⟩ := h.timedBusy hp <;> simp [htxq, hrxq]
  · obtain ⟨-, htxq, hrxq, -⟩ := h.notTimed he
    simp [htxq, hrxq]

/-- A Timed read that passes its checks finds TXQ empty. -/
theorem Inv.not_holds_readWord {s : State} (h : Inv s) : holds .readWord s = false := by
  by_cases hpass : s.engine = .timed ∧ s.hostPhase = .ready
  · obtain ⟨-, htxq, -⟩ := h.timedIdle hpass.1 hpass.2
    simp [holds, txFull_nil htxq]
  · rw [not_and] at hpass
    by_cases he : s.engine = .timed
    · simp [holds, readWordChecks, firstCause, busBusy, hpass he]
    · simp [holds, he]

/-- U5 finds RXQ empty. -/
theorem Inv.not_holds_uPush {s : State} (h : Inv s) : holds .uPush s = false := by
  by_cases hcp : s.cpState = 5#3
  · obtain ⟨-, -, -, hrxq⟩ := h.reading (by simp [hcp]) (by simp [hcp])
    simp [holds, rxFull_nil hrxq]
  · simp [holds, hcp]

/-- Settles O44: in every phase of the invariant the queue a push appends to is empty. -/
theorem noPushEverHolds : Obligations.NoPushEverHolds := fun _ h =>
  ⟨h.queues_le_one.1, h.queues_le_one.2, h.not_holds_readWord, h.not_holds_uPush⟩

/-- Settles O45: with the Timed engine U0 holds for want of a trigger, and without it the co-processor is in OFF. -/
theorem coprocIdlesWhileHostReady : Obligations.CoprocIdlesWhileHostReady := by
  intro s ts hinv hacc hs
  by_cases he : s.engine = .timed
  · obtain ⟨hcp, htxq, -⟩ := hinv.timedIdle he hacc.2
    exact step_coproc_idle hacc.1 hs hcp htxq
  · exact step_coproc_off hacc.1 hs (hinv.off_iff.2 he)

/-! What no step undoes (10_state.md R36 to R42). -/

/-- What was set up in `s` is so in `t`. -/
structure KeepsInitialisation (s t : State) : Prop where
  pinsReady : s.pinsReady = true → t.pinsReady = true
  addrSet : s.addrSet = true → t.addrSet = true
  engine : s.engine ≠ .none → t.engine = s.engine
  reOwner : s.reOwner = .cp → t.reOwner = .cp

theorem Performed.keepsInitialisation {i : Instr} {s t : State} (hperf : Performed s i t) : KeepsInitialisation s t := by
  cases hperf
  case initPins => exact ⟨fun _ => rfl, id, fun _ => rfl, id⟩
  case selectPolled hready hpins hengine => exact ⟨id, id, fun hne => absurd hengine hne, id⟩
  case startTimed hready hpins hengine h l k n => exact ⟨id, id, fun hne => absurd hengine hne, fun _ => rfl⟩
  case setAddress => exact ⟨id, fun _ => rfl, fun _ => rfl, id⟩
  all_goals exact ⟨id, id, fun _ => rfl, id⟩

theorem TurnEnd.keepsInitialisation {p t : State} (hend : TurnEnd p t) : KeepsInitialisation p t := by
  cases hend with
  | performed i hperf => exact hperf.keepsInitialisation
  | idle | fault | completed => exact ⟨id, id, fun _ => rfl, id⟩

/-- Settles O50: a halted block takes no step, and no way a turn ends undoes an initialisation. -/
theorem initialisationIsPermanent : Obligations.InitialisationIsPermanent := by
  intro s t h
  rcases step_outcomes h with rfl | ⟨hf, ts, cs, hend⟩
  · exact ⟨id, id, fun hf => ⟨hf, rfl, rfl⟩, fun _ => rfl, id⟩
  · obtain ⟨hpins, haddr, hengine, hown⟩ := hend.keepsInitialisation
    exact ⟨hpins, haddr, fun hfaulted => (nomatch hf.symm.trans hfaulted), hengine, hown⟩

end Sys2Proof.Machine

/-! The events of a step (10_state.md R47, R48): which they are, and what holds of them (20_memory.md R71,
70_reset_and_hazards.md R246, R248). -/
namespace Sys2Proof.Machine

/-- The events `es` are what the trace of `t` has beyond that of `s`, and they take the lines of `s` to those of `t`. -/
structure Emits (s t : State) (es : List Event) : Prop where
  trace : t.trace = s.trace ++ es
  lines : replay (s.dir, s.out) es = (t.dir, t.out)

/-- The events a turn from `s` to `t` can make, with what is known of the two states. -/
inductive Logged (s t : State) : List Event → Prop
  | nothing : Logged s t []
  | initPins (hpins : s.pinsReady = false) : Logged s t initPinsEvents
  | startTimed (hpins : s.pinsReady = true) (hengine : s.engine = .none) (hown : t.reOwner = .cp) :
      Logged s t [⟨.cp, .lvl (.ctrl (.only .re) true)⟩]
  | setAddress (a : Word32) (hready : s.hostPhase = .ready) (hpins : s.pinsReady = true)
      (hre : s.engine = .timed ∨ s.reOwner = .host) : Logged s t (setAddressEvents s.engine a)
  | setAddressConflict (hengine : s.engine ≠ .timed) (hown : s.reOwner = .cp) :
      Logged s t [⟨.host, .cfg (.ad 0x0000#16) .output⟩]
  | readPolled (hpins : s.pinsReady = true) (hown : s.reOwner = .host) (w : Word16) : Logged s t (readEvents .host w)
  | strobe (hown : s.reOwner = .cp) (hown' : t.reOwner = .cp) (b : Bool) :
      Logged s t [⟨.cp, .lvl (.ctrl (.only .re) b)⟩]
  | sample (hcp : s.cpState = 3#3) (w : Word16) : Logged s t [⟨.cp, .smp w⟩]

theorem emits_nothing {s t : State} (htrace : t.trace = s.trace) (hdir : t.dir = s.dir) (hout : t.out = s.out) :
    Emits s t [] :=
  ⟨by rw [htrace, List.append_nil], by rw [hdir, hout]; rfl⟩

theorem replay_initPinsEvents (d o : Lines) : replay (d, o) initPinsEvents =
    (⟨0#16, true, true, true, true, Config.rstInitOutput⟩, ⟨o.ad, true, true, true, true, Config.rstInitLevel⟩) := by
  rw [← rstInitDir_isOut]; rfl

theorem replay_setAddressEvents (e : Engine) (a : Word32) (d o : Lines) : replay (d, o) (setAddressEvents e a) =
    ({ d with ad := 0#16 },
      { o.putCtrl (inactiveGroup e) true with ad := addrLow a, alel := true, aleh := true }) := by
  cases e <;> rfl

theorem Performed.emits {i : Instr} {s t : State} (hperf : Performed s i t) :
    ∃ es, Emits s t es ∧ Logged s t es := by
  cases hperf with
  | initPins hready hpins => exact ⟨_, ⟨rfl, replay_initPinsEvents _ _⟩, .initPins hpins⟩
  | startTimed hready hpins hengine => exact ⟨_, ⟨rfl, rfl⟩, .startTimed hpins hengine rfl⟩
  | setAddress a hready hpins hre => exact ⟨_, ⟨rfl, replay_setAddressEvents _ _ _ _⟩, .setAddress a hready hpins hre⟩
  | setAddressConflict a hpins hengine hown => exact ⟨_, ⟨rfl, rfl⟩, .setAddressConflict hengine hown⟩
  | readPolled hpins hengine hown w => exact ⟨_, ⟨rfl, rfl⟩, .readPolled hpins hown w⟩
  | assertRe hcp hown => exact ⟨_, ⟨rfl, rfl⟩, .strobe hown (by exact hown) false⟩
  | deassertRe hcp hown => exact ⟨_, ⟨rfl, rfl⟩, .strobe hown (by exact hown) true⟩
  | sample hcp w => exact ⟨_, ⟨rfl, rfl⟩, .sample hcp w⟩
  | selectPolled | issueTimed | takeTrigger | hold | push => exact ⟨[], emits_nothing rfl rfl rfl, .nothing⟩

theorem TurnEnd.emits {p t : State} (hend : TurnEnd p t) : ∃ es, Emits p t es ∧ Logged p t es := by
  cases hend with
  | performed i hperf => exact hperf.emits
  | idle | fault | completed => exact ⟨[], emits_nothing rfl rfl rfl, .nothing⟩

/-- A step's events, with the state `p` whose turn it was: `s` past the words and turns it has used up. -/
theorem step_emits {s t : State} (h : step s = .next t) : ∃ es ts cs, Emits s t es ∧
    Logged { s with sched := ts, cmds := cs } t es := by
  rcases step_outcomes h with rfl | ⟨-, ts, cs, hend⟩
  · exact ⟨[], t.sched, t.cmds, emits_nothing rfl rfl rfl, .nothing⟩
  · obtain ⟨es, ⟨htrace, hlines⟩, hlogged⟩ := hend.emits
    exact ⟨es, ts, cs, ⟨htrace, hlines⟩, hlogged⟩

/-- Settles O46: what a step adds to the trace are its events. -/
theorem traceIsAppendOnly : Obligations.TraceIsAppendOnly := by
  intro s t h
  obtain ⟨es, -, -, hemits, -⟩ := step_emits h
  exact ⟨es, hemits.trace⟩

/-! WE (R71). -/

theorem Logged.we_not_asserted {s t : State} {es : List Event} (h : Logged s t es) :
    ∀ e ∈ es, e.sets .we false = false := by
  cases h <;> simp [initPinsEvents, setAddressEvents, latchPulseEvents, readEvents, Event.sets, PinAct.value,
    CtrlGroup.has]

/-- Settles O48: the events that set WE are those of `CTRL4` and `CTRL3`, which set it to 1. -/
theorem writeEnableNeverAsserted : Obligations.WriteEnableNeverAsserted := by
  intro s t h hall e he
  obtain ⟨es, ts, cs, hemits, hlogged⟩ := step_emits h
  rw [hemits.trace, List.mem_append] at he
  exact he.elim (hall e) (hlogged.we_not_asserted e)

/-! Contention (R128, R246). -/

theorem contention_of_inputs {p : Lines × Lines} (h : p.1.ad = 0#16) : contention p = false := by
  simp [contention, h]

/-- RE is driven to 1. -/
def ReHigh (p : Lines × Lines) : Prop := p.1.re = true ∧ p.2.re = true

theorem contention_of_reHigh {p : Lines × Lines} (h : ReHigh p) : contention p = false := by
  simp [contention, h.1, h.2]

/-- Events that keep a condition which excludes contention end in none. -/
theorem contentionFree_of_kept {P : Lines × Lines → Prop} (hP : ∀ p, P p → contention p = false) {es : List Event}
    (hes : ∀ e ∈ es, ∀ p, P p → P (e.act.apply p)) {p : Lines × Lines} (hp : P p) : contentionFree p es = true := by
  induction es generalizing p with
  | nil => rfl
  | cons e es ih =>
    obtain ⟨hhead, htail⟩ := List.forall_mem_cons.1 hes
    have hnext := hhead p hp
    rw [contentionFree, hP _ hnext, ih htail hnext]; rfl

theorem contentionFree_of_inputs {es : List Event} {p : Lines × Lines} (had : p.1.ad = 0#16)
    (hes : ∀ e ∈ es, ∀ p, (e.act.apply p).1 = p.1) : contentionFree p es = true :=
  contentionFree_of_kept (P := fun p => p.1.ad = 0#16) (fun _ => contention_of_inputs)
    (fun e he p hp => by rw [hes e he p, hp]) had

/-- The Host's events of SET_ADDRESS leave RE driven to 1, or do not drive it. -/
theorem setAddressEvents_keep_reHigh (en : Engine) (a : Word32) :
    ∀ e ∈ setAddressEvents en a, ∀ p, ReHigh p → ReHigh (e.act.apply p) := by
  simp +contextual [setAddressEvents, latchPulseEvents, ReHigh, PinAct.apply, Lines.setDir, Lines.put, Lines.putCtrl,
    GroupVal.group, CtrlGroup.has]

/-- Between commands RE is at 1 (R192, R246). -/
theorem Inv.re_high {s : State} (h : Inv s) (hready : s.hostPhase = .ready) (hpins : s.pinsReady = true) :
    s.out.re = true := by
  rw [h.reLevel hpins]
  by_cases he : s.engine = .timed
  · rw [reStrobed, (h.timedIdle he hready).1]; rfl
  · rw [reStrobed, h.off_iff.2 he]; rfl

theorem Inv.timed_of_cp_owns {s : State} (h : Inv s) (hown : s.reOwner = .cp) : s.engine = .timed :=
  h.timed_or_host_owns.resolve_right (by simp [hown])

/-- After INIT_PINS the AD lines are inputs. -/
theorem Inv.ad_inputs {s : State} (h : Inv s) (hpins : s.pinsReady = true) : s.dir.ad = 0#16 := by
  obtain ⟨-, -, had⟩ := h.pinDirs hpins
  exact had

theorem Logged.contentionFree {s t : State} {es : List Event} (h : Logged s t es) (hinv : Inv s) :
    contentionFree (s.dir, s.out) es = true := by
  cases h with
  | nothing | initPins => rfl
  | startTimed hpins => exact contentionFree_of_inputs (hinv.ad_inputs hpins) (by simp [PinAct.apply])
  | setAddress a hready hpins hre =>
    obtain ⟨⟨hdir, -⟩, -⟩ := hinv.pinDirs hpins
    exact contentionFree_of_kept (fun _ => contention_of_reHigh) (setAddressEvents_keep_reHigh s.engine a)
      ⟨hdir, hinv.re_high hready hpins⟩
  | setAddressConflict hengine hown => exact absurd (hinv.timed_of_cp_owns hown) hengine
  | readPolled hpins hown w =>
    exact contentionFree_of_inputs (hinv.ad_inputs hpins) (by simp [readEvents, PinAct.apply])
  | strobe hown =>
    have hpins := hinv.pinsReady_of_timed (hinv.timed_of_cp_owns hown)
    exact contentionFree_of_inputs (hinv.ad_inputs hpins) (by simp [PinAct.apply])
  | sample hcp w =>
    obtain ⟨he, -⟩ := hinv.reading (by simp [hcp]) (by simp [hcp])
    exact contentionFree_of_inputs (hinv.ad_inputs (hinv.pinsReady_of_timed he)) (by simp [PinAct.apply])

/-- Settles O47: the events of each turn replay to its lines, and drive AD only while RE is driven to 1. -/
theorem noContention : Obligations.NoContention := by
  intro s t hinv h
  obtain ⟨es, ts, cs, ⟨htrace, hlines⟩, hlogged⟩ := step_emits h
  exact ⟨es, htrace, hlines, hlogged.contentionFree (hinv.withLists ts cs)⟩

/-! The ownership of RE (R180, R248). -/

theorem Logged.re_driven_by_owner {s t : State} {es : List Event} (h : Logged s t es) (hinv : Inv s) :
    (s.reOwner = .cp → ∀ e ∈ es, e.drivesRe = true → e.agent = .cp) ∧
      (t.reOwner = .host → ∀ e ∈ es, e.drivesRe = true → e.agent = .host) := by
  cases h with
  | nothing => exact ⟨fun _ => nofun, fun _ => nofun⟩
  | initPins hpins =>
    obtain ⟨hnone, -⟩ := hinv.unready hpins
    exact ⟨fun hown => (nomatch hnone.symm.trans (hinv.timed_of_cp_owns hown)), fun _ => by simp [initPinsEvents]⟩
  | startTimed hpins hengine hown =>
    exact ⟨fun _ => by simp, fun hhost => nomatch hown.symm.trans hhost⟩
  | setAddress a hready hpins hre =>
    refine ⟨fun hown => ?_, fun _ => by simp [setAddressEvents, latchPulseEvents]⟩
    simp [setAddressEvents, latchPulseEvents, hinv.timed_of_cp_owns hown, Event.drivesRe, Event.sets, PinAct.value,
      inactiveGroup, CtrlGroup.has]
  | setAddressConflict hengine hown => exact absurd (hinv.timed_of_cp_owns hown) hengine
  | readPolled hpins hown w =>
    exact ⟨fun hcp => (nomatch hown.symm.trans hcp), fun _ => by simp [readEvents]⟩
  | strobe hown hown' b => exact ⟨fun _ => by simp, fun hhost => nomatch hown'.symm.trans hhost⟩
  | sample hcp w => exact ⟨fun _ => by simp, fun _ => by simp [Event.drivesRe, Event.sets, PinAct.value]⟩

/-- Settles O49: the Host's events drive RE only where the Host owns it, or not at all with the Timed engine. -/
theorem readEnableIsExclusive : Obligations.ReadEnableIsExclusive := by
  intro s t hinv h
  obtain ⟨es, ts, cs, hemits, hlogged⟩ := step_emits h
  obtain ⟨hcp, hhost⟩ := hlogged.re_driven_by_owner (hinv.withLists ts cs)
  exact ⟨es, hemits.trace, hcp, hhost⟩

end Sys2Proof.Machine

/-! Whole Timed reads (42_word_read_engine.md R164, 43_timed_coprocessor.md R191, R194). -/
namespace Sys2Proof.Machine

/-! The turns of a Timed read, one equation each. -/

theorem step_issueTimed {s : State} {ts : List Turn} {cs : List Word40} (hacc : Accepting s) (hp : s.pinsReady = true)
    (he : s.engine = .timed) (ha : s.addrSet = true) (htxq : s.txq = []) (hs : s.sched = .issue :: ts)
    (hc : s.cmds = readWordWord :: cs) : step s = .next { s with
      sched := ts, cmds := cs, txq := [.trig], hostPhase := .waitWord } := by
  have hroom : ¬ s.txFull = true := by simp [txFull_nil htxq]
  rw [step_issue (i := .readWord) hacc.1 hs hc rfl (by simp [holds, hroom]),
    exec_readWord_accepting (by exact hacc) (by exact hp) (by simp [he]) (by exact ha), if_pos (by exact he),
    readTimedIssue, if_neg (by exact hroom), pushTrigger, htxq]
  rfl

theorem step_takeTrigger {s : State} {ts : List Turn} {q : Trigger} {rest : List Trigger} (hf : s.faulted = false)
    (hs : s.sched = .coproc :: ts) (hc : s.cpState = 0#3) (htxq : s.txq = q :: rest) :
    step s = .next { s with sched := ts, txq := rest, cpState := 1#3 } := by
  rw [step_coproc (i := .uWaitTrig) hf hs (by rw [hc]; rfl), exec_uWaitTrig_run _ (by exact hf) (by exact hc),
    takeTrigger_cons (by exact htxq)]

theorem step_assertRe {s : State} {ts : List Turn} (hf : s.faulted = false) (hs : s.sched = .coproc :: ts)
    (hc : s.cpState = 1#3) (ho : s.reOwner = .cp) (hd : StrobesDriven s) : step s = .next { s with
      sched := ts, out := { s.out with re := false }, cpState := 2#3
      trace := s.trace ++ [⟨.cp, .lvl (.ctrl (.only .re) false)⟩], draws := s.draws + 4 } := by
  rw [step_coproc (i := .uReAssert) hf hs (by rw [hc]; rfl),
    exec_uReAssert_owner (by exact hf) (by exact ho) (by exact hd) (by exact hc)]

theorem step_hold {s : State} {ts : List Turn} (hf : s.faulted = false) (hs : s.sched = .coproc :: ts)
    (hc : s.cpState = 2#3) : step s = .next { s with sched := ts, cpState := 3#3 } := by
  rw [step_coproc (i := .uHold) hf hs (by rw [hc]; rfl), exec_uHold_run _ (by exact hf) (by exact hc)]

theorem step_sample {s : State} {ts : List Turn} (hf : s.faulted = false) (hs : s.sched = .coproc :: ts)
    (hc : s.cpState = 3#3) (hdir : s.dir.re = true) (hre : s.out.re = false) (had : s.dir.ad = 0#16) :
    step s = .next { s with
      sched := ts, cpW := some (s.cart.head?.getD (s.cartWord s.draws)), cpState := 4#3, cart := s.cart.tail
      draws := s.draws + 1, trace := s.trace ++ [⟨.cp, .smp (s.cart.head?.getD (s.cartWord s.draws))⟩] } := by
  rw [step_coproc (i := .uSample) hf hs (by rw [hc]; rfl),
    exec_uSample_read (by exact hf) (by exact hc) (by exact hdir) (by exact hre) (by exact had)]
  rfl

theorem step_deassertRe {s : State} {ts : List Turn} (hf : s.faulted = false) (hs : s.sched = .coproc :: ts)
    (hc : s.cpState = 4#3) (ho : s.reOwner = .cp) (hd : StrobesDriven s) (hre : s.out.re = false) :
    step s = .next { s with
      sched := ts, out := { s.out with re := true }, cpState := 5#3, rdcnt := s.rdcnt + 1
      trace := s.trace ++ [⟨.cp, .lvl (.ctrl (.only .re) true)⟩], draws := s.draws + 4 } := by
  rw [step_coproc (i := .uReDeassert) hf hs (by rw [hc]; rfl),
    exec_uReDeassert_owner (by exact hf) (by exact ho) (by exact hd) (by exact hc) (by exact hre)]

theorem step_push {s : State} {ts : List Turn} {w : Word16} (hf : s.faulted = false) (hs : s.sched = .coproc :: ts)
    (hc : s.cpState = 5#3) (hrxq : s.rxq = []) (hw : s.cpW = some w) :
    step s = .next { s with sched := ts, rxq := [w], cpState := 0#3 } := by
  rw [step_coproc (i := .uPush) hf hs (by rw [hc]; rfl), exec_uPush_run _ (by exact hf) (by exact hc),
    pushCpW_some (rxFull_nil (by exact hrxq)) (by exact hw), pushWord, hrxq]
  rfl

theorem step_completed {s : State} {ts : List Turn} {w : Word16} {rest : List Word16} (hf : s.faulted = false)
    (hs : s.sched = .complete :: ts) (hwait : s.hostPhase = .waitWord) (hrxq : s.rxq = w :: rest) :
    step s = .next { s with sched := ts, rxq := rest, rdData := some w, hostPhase := .ready } := by
  rw [step_complete hf hs, completeReadWord_of_word hf hwait hrxq]

/-- The eight turns of a Timed read (R191), `w` being the word the cartridge drives at the fifth. -/
theorem timedRead_run {s : State} {cs : List Word40} {ts : List Turn} (hinv : Inv s) (hacc : Accepting s)
    (he : s.engine = .timed) (ha : s.addrSet = true) (hcmds : s.cmds = readWordWord :: cs)
    (hsched : s.sched =
      .issue :: .coproc :: .coproc :: .coproc :: .coproc :: .coproc :: .coproc :: .complete :: ts) :
    Host.Core.run core 8 s = .next { s with
      rdData := some (s.cart.head?.getD (s.cartWord (s.draws + 4)))
      cpW := some (s.cart.head?.getD (s.cartWord (s.draws + 4)))
      rdcnt := s.rdcnt + 1, cart := s.cart.tail, cmds := cs, sched := ts
      trace := s.trace ++ readEvents .cp (s.cart.head?.getD (s.cartWord (s.draws + 4))), draws := s.draws + 9 } := by
  have hp := hinv.pinsReady_of_timed he
  have hre := hinv.re_high hacc.2 hp
  have ho := hinv.timedOwner he
  obtain ⟨hf, hready⟩ := hacc
  obtain ⟨hcp, htxq, hrxq⟩ := hinv.timedIdle he hready
  obtain ⟨hd, -, had⟩ := hinv.pinDirs hp
  have hout : ({ s.out with re := true } : Lines) = s.out := by rw [← hre]
  refine (run_next 7 (step_issueTimed ⟨hf, hready⟩ hp he ha htxq hsched hcmds)).trans ?_
  refine (run_next 6 (step_takeTrigger (by exact hf) (by rfl) (by exact hcp) (by rfl))).trans ?_
  refine (run_next 5 (step_assertRe (by exact hf) (by rfl) (by rfl) (by exact ho) (by exact hd))).trans ?_
  refine (run_next 4 (step_hold (by exact hf) (by rfl) (by rfl))).trans ?_
  refine (run_next 3 (step_sample (by exact hf) (by rfl) (by rfl) (by exact hd.1) (by rfl) (by exact had))).trans ?_
  refine (run_next 2 (step_deassertRe (by exact hf) (by rfl) (by rfl) (by exact ho) (by exact hd) (by rfl))).trans ?_
  refine (run_next 1 (step_push (by exact hf) (by rfl) (by rfl) (by exact hrxq) (by rfl))).trans ?_
  refine (run_next 0 (step_completed (by exact hf) (by rfl) (by rfl) (by rfl))).trans ?_
  simp [Host.Core.run, hout, hcp, htxq, hrxq, hready, readEvents, State.cartWord]

/-- Settles O36: the eight turns one after the other. -/
theorem timedReadRuns : Obligations.TimedReadRuns := by
  intro s cs ts hinv hacc he hp ha hcmds hsched
  exact ⟨_, s.draws + 9, cartridgeGives_next s (s.draws + 4), timedRead_run hinv hacc he ha hcmds hsched⟩

/-- R127: with a listed word, or with a deterministic cartridge, the cartridge gives one word only. -/
theorem CartridgeGives.unique {s : State} {v w : Word16} (hw : CartridgeGives s w) (hv : CartridgeGives s v)
    (h : s.cart ≠ [] ∨ DeterministicCartridge) : w = v := by
  unfold CartridgeGives at hw hv
  cases hc : s.cart with
  | cons x xs => rw [hc] at hw hv; exact hw.trans hv.symm
  | nil =>
    rw [hc] at hw hv
    obtain ⟨f, hdet⟩ := h.resolve_left (fun hne => hne hc)
    obtain ⟨n, rfl⟩ := hw
    obtain ⟨m, rfl⟩ := hv
    rw [hdet, hdet]

theorem CartridgeGives.congr {s t : State} {w : Word16} (h : CartridgeGives s w) (hH : t.latchH = s.latchH)
    (hL : t.latchL = s.latchL) (hk : t.rdcnt = s.rdcnt) (hc : t.cart = s.cart) : CartridgeGives t w := by
  unfold CartridgeGives at h ⊢
  rwa [hH, hL, hk, hc]

/-- Settles O37: both reads in full, each with its own draw; one word where the cartridge gives only one. -/
theorem variantsReturnTheSameWord : Obligations.VariantsReturnTheSameWord := by
  intro p t cs ts hpinv hpacc hpe hpa htinv htacc hte hta hH hL hk hc hcmds hsched
  have hpp : p.pinsReady = true := by
    by_contra hne
    obtain ⟨hnone, -⟩ := hpinv.unready (Bool.eq_false_iff.2 hne)
    exact nomatch hpe.symm.trans hnone
  obtain ⟨-, -, -, hown, -⟩ := hpinv.notTimed (by rw [hpe]; nofun)
  obtain ⟨hd, -, had⟩ := hpinv.pinDirs hpp
  have hw := cartridgeGives_next p (p.draws + 4)
  have hv := (cartridgeGives_next t (t.draws + 4)).congr hH hL hk hc
  exact ⟨_, _, _, _, exec_readWord_polled hpacc hpp hpe hpa hown hd had,
    timedRead_run htinv htacc hte hta hcmds hsched, rfl, rfl, hw, hv, rfl, rfl, rfl, congrArg (· + 1) hk.symm,
    congrArg List.tail hc.symm, hH.symm, hL.symm, hw.unique hv⟩

/-! Liveness (R194): a bound on the co-processor's turns until the word waits. -/

/-- How many turns of the co-processor a Timed read still needs. -/
def turnsLeft (s : State) : Nat :=
  if s.rxq ≠ [] then 0 else if s.txq ≠ [] then 6 else 6 - s.cpState.toNat

theorem turnsLeft_le (s : State) : turnsLeft s ≤ 6 := by
  unfold turnsLeft
  split
  · omega
  · split <;> omega

/-- The Timed read needs at most `n` more turns of the co-processor, or has completed. -/
structure ReadDueIn (n : Nat) (s : State) : Prop where
  inv : Inv s
  running : s.faulted = false
  due : (s.hostPhase = .waitWord ∧ turnsLeft s ≤ n) ∨ (s.hostPhase = .ready ∧ s.rdData.isSome = true)

/-- Every turn of the co-processor brings a waiting read one turn nearer. -/
theorem Inv.coproc_progress {s : State} {ts : List Turn} (h : Inv s) (hf : s.faulted = false)
    (hwait : s.hostPhase = .waitWord) (hs : s.sched = .coproc :: ts) : ∃ t, step s = .next t ∧ t.sched = ts ∧
      t.faulted = false ∧ t.hostPhase = .waitWord ∧ turnsLeft t = turnsLeft s - 1 := by
  have he := h.timed_of_waitWord hwait
  have hp := h.pinsReady_of_timed he
  have ho := h.timedOwner he
  obtain ⟨hd, -, had⟩ := h.pinDirs hp
  obtain ⟨-, ⟨htxq, hcp, hrxq⟩ | ⟨htxq, hlo, hhi, hrxq⟩ | ⟨htxq, hcp, hone⟩⟩ := h.timedBusy hwait
  · exact ⟨_, step_takeTrigger hf hs hcp htxq, rfl, hf, hwait, by simp [turnsLeft, htxq, hrxq]⟩
  · rcases cpState_cases s.cpState with hcp | hcp | hcp | hcp | hcp | hcp | hcp | hcp
    · simp [hcp] at hlo
    · exact ⟨_, step_assertRe hf hs hcp ho hd, rfl, hf, hwait, by simp [turnsLeft, htxq, hrxq, hcp]⟩
    · exact ⟨_, step_hold hf hs hcp, rfl, hf, hwait, by simp [turnsLeft, htxq, hrxq, hcp]⟩
    · exact ⟨_, step_sample hf hs hcp hd.1 ((h.out_re he hcp).trans rfl) had, rfl, hf, hwait,
        by simp [turnsLeft, htxq, hrxq, hcp]⟩
    · exact ⟨_, step_deassertRe hf hs hcp ho hd ((h.out_re he hcp).trans rfl), rfl, hf, hwait,
        by simp [turnsLeft, htxq, hrxq, hcp]⟩
    · obtain ⟨w, hw⟩ := Option.isSome_iff_exists.1 (h.sampled (by simp [hcp]) (by simp [hcp]))
      exact ⟨_, step_push hf hs hcp hrxq hw, rfl, hf, hwait, by simp [turnsLeft, htxq, hrxq, hcp]⟩
    · simp [hcp] at hhi
    · simp [hcp] at hhi
  · have hword : s.rxq ≠ [] := List.ne_nil_of_length_pos (by omega)
    exact ⟨_, step_coproc_idle hf hs hcp htxq, rfl, hf, hwait, by simp [turnsLeft, hword]⟩

theorem ReadDueIn.coproc {n : Nat} {s : State} {ts : List Turn} (h : ReadDueIn n s) (hs : s.sched = .coproc :: ts) :
    ∃ t, step s = .next t ∧ t.sched = ts ∧ ReadDueIn (n - 1) t := by
  obtain ⟨hinv, hf, ⟨hwait, hle⟩ | ⟨hready, hdata⟩⟩ := h
  · obtain ⟨t, hstep, hsched, hf', hwait', hleft⟩ := hinv.coproc_progress hf hwait hs
    exact ⟨t, hstep, hsched, stepKeepsInvariant s t hinv hstep, hf', .inl ⟨hwait', by omega⟩⟩
  · have hstep := coprocIdlesWhileHostReady s ts hinv ⟨hf, hready⟩ hs
    exact ⟨_, hstep, rfl, stepKeepsInvariant s _ hinv hstep, hf, .inr ⟨hready, hdata⟩⟩

/-- With no turn of the co-processor left to wait for, a word is in RXQ (R192). -/
theorem Inv.word_waits {s : State} (h : Inv s) (hwait : s.hostPhase = .waitWord) (hleft : turnsLeft s = 0) :
    ∃ w rest, s.rxq = w :: rest := by
  refine List.exists_cons_of_ne_nil fun hrxq => ?_
  obtain ⟨-, ⟨htxq, -, -⟩ | ⟨htxq, -, hhi, -⟩ | ⟨-, -, hone⟩⟩ := h.timedBusy hwait
  · simp [turnsLeft, hrxq, htxq] at hleft
  · simp only [turnsLeft, hrxq, htxq, ne_eq, not_true_eq_false, if_false] at hleft
    omega
  · simp [hrxq] at hone

theorem ReadDueIn.complete {n : Nat} {s : State} {ts : List Turn} (h : ReadDueIn n s) (hs : s.sched = .complete :: ts) :
    ∃ t, step s = .next t ∧ t.sched = ts ∧ ReadDueIn n t ∧ (n = 0 → t.hostPhase = .ready) := by
  obtain ⟨hinv, hf, ⟨hwait, hle⟩ | ⟨hready, hdata⟩⟩ := h
  · cases hrxq : s.rxq with
    | nil =>
      have hstep : step s = .next { s with sched := ts } := by rw [step_complete hf hs, completeReadWord_of_empty hrxq]
      refine ⟨_, hstep, rfl, ⟨stepKeepsInvariant s _ hinv hstep, hf, .inl ⟨hwait, hle⟩⟩, fun hn => ?_⟩
      obtain ⟨w, rest, hword⟩ := hinv.word_waits hwait (by omega)
      exact nomatch hrxq.symm.trans hword
    | cons w rest =>
      have hstep := step_completed hf hs hwait hrxq
      exact ⟨_, hstep, rfl, ⟨stepKeepsInvariant s _ hinv hstep, hf, .inr ⟨rfl, rfl⟩⟩, fun _ => rfl⟩
  · have hstep := step_complete_ready hf hs hready
    exact ⟨_, hstep, rfl, ⟨stepKeepsInvariant s _ hinv hstep, hf, .inr ⟨hready, hdata⟩⟩, fun _ => hready⟩

/-- By induction on the turns: those of the co-processor count down, and the last completion finds the count at 0. -/
theorem ReadDueIn.completes {ts rest : List Turn} {n : Nat} {s : State} (h : ReadDueIn n s)
    (hs : s.sched = ts ++ .complete :: rest) (hissue : .issue ∉ ts) (hn : n ≤ ts.count .coproc) :
    ∃ t, Host.Core.run core (ts.length + 1) s = .next t ∧ t.hostPhase = .ready ∧ t.sched = rest ∧ ReadDueIn 0 t := by
  induction ts generalizing n s with
  | nil =>
    obtain rfl : n = 0 := by simpa using hn
    obtain ⟨t, hstep, hsched, hdue, hready⟩ := h.complete hs
    exact ⟨t, (run_next 0 hstep).trans rfl, hready rfl, hsched, hdue⟩
  | cons u ts ih =>
    rw [List.mem_cons, not_or] at hissue
    obtain ⟨hne, hissue⟩ := hissue
    cases u with
    | issue => exact absurd rfl hne
    | complete =>
      obtain ⟨t, hstep, hsched, hdue, -⟩ := h.complete hs
      obtain ⟨t', hrun, hend⟩ := ih hdue hsched hissue (by simpa using hn)
      exact ⟨t', (run_next _ hstep).trans hrun, hend⟩
    | coproc =>
      obtain ⟨t, hstep, hsched, hdue⟩ := h.coproc hs
      obtain ⟨t', hrun, hend⟩ := ih hdue hsched hissue (by rw [List.count_cons_self] at hn; omega)
      exact ⟨t', (run_next _ hstep).trans hrun, hend⟩

/-- Settles O38: a waiting read needs at most six turns of the co-processor. -/
theorem fairScheduleCompletesRead : Obligations.FairScheduleCompletesRead := by
  intro s ts rest hinv hf hwait hs hissue hfair
  have hdue : ReadDueIn 6 s := ⟨hinv, hf, .inl ⟨hwait, turnsLeft_le s⟩⟩
  obtain ⟨t, hrun, hready, hsched, -, hf', ⟨hwait', -⟩ | ⟨-, hdata⟩⟩ := hdue.completes hs hissue hfair
  · exact nomatch hwait'.symm.trans hready
  · exact ⟨t, hrun, hready, hdata, hf', hsched⟩

/-- Settles O39: by induction on the turns, each an attempt at a completion with RXQ empty. -/
theorem unscheduledCoprocHangsRead : Obligations.UnscheduledCoprocHangsRead := by
  intro s ts hf hwait hrxq hs hissue hcoproc
  induction ts generalizing s with
  | nil =>
    change Host.Outcome.next s = .next { s with sched := [] }
    rw [← hs]
  | cons u ts ih =>
    rw [List.mem_cons, not_or] at hissue hcoproc
    obtain ⟨hni, hissue⟩ := hissue
    obtain ⟨hnc, hcoproc⟩ := hcoproc
    cases u with
    | issue => exact absurd rfl hni
    | coproc => exact absurd rfl hnc
    | complete =>
      have hstep : step s = .next { s with sched := ts } := by rw [step_complete hf hs, completeReadWord_of_empty hrxq]
      exact (run_next ts.length hstep).trans (ih { s with sched := ts } hf hwait hrxq rfl hissue hcoproc)

end Sys2Proof.Machine

/-! Views of the state and of the cartridge: STATUS (10_state.md R49), the reference cartridge (40_bus_pin_set.md R133,
20_memory.md R76), and the address-map facts (20_memory.md R80 to R82). -/
namespace Sys2Proof.Machine

/-! STATUS (R49): each field is what is left after those below it. -/

/-- A field above the lower part of an appended word is one of the upper part. -/
theorem extractLsb'_append_skip {n m i k : Nat} {x : BitVec n} {y : BitVec m} {z : BitVec k}
    (h : x.extractLsb' i k = z) : (x ++ y).extractLsb' (i + m) k = z := by
  rw [BitVec.extractLsb'_append_eq_of_le (Nat.le_add_left m i), Nat.add_sub_cancel, h]

/-- Settles O53: a field is reached past the fields below it. -/
theorem statusLayout : Obligations.StatusLayout := by
  intro s
  unfold State.status
  refine ⟨BitVec.extractLsb'_append_eq_right, ?_, ?_, ?_, ?_, ?_, ?_, ?_, ?_⟩
  · exact extractLsb'_append_skip BitVec.extractLsb'_append_eq_right
  · iterate 2 refine extractLsb'_append_skip ?_
    exact BitVec.extractLsb'_append_eq_right
  · iterate 3 refine extractLsb'_append_skip ?_
    exact BitVec.extractLsb'_append_eq_right
  · iterate 4 refine extractLsb'_append_skip ?_
    exact BitVec.extractLsb'_append_eq_right
  · iterate 5 refine extractLsb'_append_skip ?_
    exact BitVec.extractLsb'_append_eq_right
  · iterate 6 refine extractLsb'_append_skip ?_
    exact BitVec.extractLsb'_append_eq_right
  · iterate 7 refine extractLsb'_append_skip ?_
    exact BitVec.extractLsb'_append_eq_right
  · iterate 8 refine extractLsb'_append_skip ?_
    exact BitVec.extractLsb'_eq_self

/-! The reference cartridge (R133). -/

theorem beWord32_halves (a : Word32) : beWord32 (a.extractLsb' 16 16) (a.extractLsb' 0 16) = a := by
  rw [beWord32, BitVec.extractLsb'_append_extractLsb'_eq_extractLsb' (by rfl)]
  exact BitVec.extractLsb'_eq_self

theorem cartData_eq_wordAt (r : RefCartridge) (a : Word32) (k : Nat) :
    r.cartData (a.extractLsb' 16 16) (a.extractLsb' 0 16) k =
      r.wordAt (r.offset (a + BitVec.ofNat 32 (2 * k))) := by
  rw [RefCartridge.cartData, beWord32_halves]

theorem wellFormed_iff (r : RefCartridge) : r.wellFormed = true ↔
    2 ≤ r.size ∧ r.size % 2 = 0 ∧ r.bytes.length = r.size ∧ r.base.toNat % 2 = 0 := by
  simp [RefCartridge.wellFormed, and_assoc]

/-- The place in the image, with bit 0 of the distance dropped. -/
theorem offset_of_distance {r : RefCartridge} {a : Word32} {d : Nat} (hsize : 2 ≤ r.size) (heven : r.size % 2 = 0)
    (hd : d % 2 = 0) (h : (a - r.base).toNat = d ∨ (a - r.base).toNat = d + 1) : r.offset a = d % r.size := by
  have hlt := Nat.mod_lt d (by omega : r.size > 0)
  have hpar : d % r.size % 2 = 0 := by rw [Nat.mod_mod_of_dvd _ (Nat.dvd_of_mod_eq_zero heven), hd]
  rcases h with h | h <;> simp only [RefCartridge.offset, h]
  · omega
  · rw [← Nat.mod_add_mod, Nat.mod_eq_of_lt (a := d % r.size + 1) (by omega)]
    omega

/-- The distance from the base of a burst's position. -/
theorem burst_distance_even {a base : Word32} (k : Nat) (ha : a.toNat % 2 = 0) (hb : base.toNat % 2 = 0) :
    (a + BitVec.ofNat 32 (2 * k) - base).toNat % 2 = 0 := by
  simp only [BitVec.toNat_sub, BitVec.toNat_add, BitVec.toNat_ofNat]
  omega

/-- One byte further, an even distance grows by 1. -/
theorem burst_distance_succ {a base : Word32} (k : Nat) (ha : a.toNat % 2 = 0) (hb : base.toNat % 2 = 0) :
    (a + 1#32 + BitVec.ofNat 32 (2 * k) - base).toNat = (a + BitVec.ofNat 32 (2 * k) - base).toNat + 1 := by
  simp only [BitVec.toNat_sub, BitVec.toNat_add, BitVec.toNat_ofNat]
  omega

/-- One image further, short of the end of the address space, the distance grows by `SIZE`. -/
theorem burst_distance_mirror {a base : Word32} {k size : Nat} (h : (a - base).toNat + 2 * k + size < 2 ^ 32) :
    (a + BitVec.ofNat 32 size + BitVec.ofNat 32 (2 * k) - base).toNat =
      (a + BitVec.ofNat 32 (2 * k) - base).toNat + size := by
  simp only [BitVec.toNat_sub, BitVec.toNat_add, BitVec.toNat_ofNat] at h ⊢
  omega

/-- Settles O55: every distance of the burst is even, so bit 0 changes nothing, and `SIZE` more is the same remainder. -/
theorem referenceCartridgeBurst : Obligations.ReferenceCartridgeBurst := by
  intro r a k hwf ha
  obtain ⟨hsize, heven, hlen, hbase⟩ := (wellFormed_iff r).1 hwf
  have hdist := burst_distance_even k ha hbase
  have hlt := Nat.mod_lt (a + BitVec.ofNat 32 (2 * k) - r.base).toNat (by omega : r.size > 0)
  simp only [cartData_eq_wordAt]
  rw [offset_of_distance hsize heven hdist (.inl rfl)]
  refine ⟨⟨_, rfl, ?_, rfl⟩, ?_, fun hnowrap => ?_⟩
  · have hpar : (a + BitVec.ofNat 32 (2 * k) - r.base).toNat % r.size % 2 = 0 := by
      rw [Nat.mod_mod_of_dvd _ (Nat.dvd_of_mod_eq_zero heven), hdist]
    omega
  · rw [offset_of_distance hsize heven hdist (.inr (burst_distance_succ k ha hbase))]
  · have hmirror := burst_distance_mirror hnowrap
    rw [offset_of_distance hsize heven (by omega) (.inl hmirror), Nat.add_mod_right]

/-! The header and the chunks (R80 to R82). -/

theorem serWords_drop (n : Nat) (ws : List Word16) : serWords (ws.drop n) = (serWords ws).drop (2 * n) := by
  induction n generalizing ws with
  | zero => rfl
  | succ n ih =>
    cases ws with
    | nil => simp
    | cons w ws => simp [ih, Nat.mul_succ]

theorem serWords_take (n : Nat) (ws : List Word16) : serWords (ws.take n) = (serWords ws).take (2 * n) := by
  induction n generalizing ws with
  | zero => rfl
  | succ n ih =>
    cases ws with
    | nil => simp
    | cons w ws => simp [ih, Nat.mul_succ]

theorem headerChecksum_words {ws : List Word16} (h : 10 ≤ ws.length) :
    headerChecksum ws = ser (ws.getD 8 0#16) ++ ser (ws.getD 9 0#16) := by
  have hwords : (ws.drop 8).take 2 = [ws.getD 8 0#16, ws.getD 9 0#16] := by
    rw [List.drop_eq_getElem_cons (i := 8) (by omega), List.drop_eq_getElem_cons (i := 9) (by omega),
      List.getD_eq_getElem ws _ (by omega), List.getD_eq_getElem ws _ (by omega)]
    rfl
  rw [headerChecksum, hwords]
  rfl

theorem romBase_even : Config.romBase.toNat % 2 = 0 := by
  rw [Config.romBase, BitVec.toNat_append]
  simp [Nat.shiftLeft_eq]

/-- Settles O57: a word is two bytes, so the header's word positions double; the addresses are sums of even terms. -/
theorem headerAndChunkAddresses : Obligations.HeaderAndChunkAddresses := by
  refine ⟨fun ws => ⟨?_, ?_⟩, fun ws hlen => ⟨headerChecksum_words (by omega), ?_⟩, romBase_even,
    fun j => ⟨rfl, ?_, ?_⟩, fun mb => ⟨rfl, ?_⟩⟩
  · rw [headerChecksum, serWords_take, serWords_drop]
  · rw [headerName, serWords_take, serWords_drop]
  · simp [headerName]; omega
  · have heven := romBase_even
    simp only [chunkAddress, BitVec.toNat_add, BitVec.toNat_ofNat]
    omega
  · rw [chunkAddress, chunkAddress, Nat.mul_succ, BitVec.ofNat_add, BitVec.add_assoc]
  · rw [mirrorAddress, chunkAddress]
    congr 2
    omega

end Sys2Proof.Machine
